-- ==== Sys2Proof/Word.lean ====
section
/-! DEFINITION. Word: the two widths of the machine's registers and data (spec/00_scope.md rules R5, R7, R8), and that of
a tape's durations. -/

namespace Sys2Proof

/-- An 8-bit value: a main register, a memory byte, an operand byte (rules R20, R38). -/
abbrev Byte := BitVec 8

/-- A 16-bit value: a register pair, an index register, SP, PC, an address, a port (rules R21 .. R25, R60). -/
abbrev Word := BitVec 16

/-- A 32-bit quantity of spec/10_state.md rule R44: a pulse's duration, a block's pause. -/
abbrev U32 := BitVec 32

end Sys2Proof
end

