-- ==== Sys2Proof/Machine/Bits.lean ====
section
/-! DEFINITION. Bits: the bit-field, byte-order and sign-extension helpers of spec/00_scope.md rules R7 .. R8 that the
decoder and the machine share. -/

namespace Sys2Proof

/-- `v[15:8]` (rule R7). -/
def hiByte (v : Word) : Byte := v.extractLsb' 8 8

/-- `v[7:0]` (rule R7). -/
def loByte (v : Word) : Byte := v.extractLsb' 0 8

/-- `hi ++ lo`, the high byte first (rule R7). -/
def mkWord (hi lo : Byte) : Word := hi ++ lo

/-- `sext_16` of an 8-bit value (rule R8). -/
def sext16 (v : Byte) : Word := v.signExtend 16

/-- The field of `w` bits of `op` from bit `lo` upward, as an unsigned number (rule R7). -/
def field (op : Byte) (lo w : Nat) : Nat := op.toNat / 2 ^ lo % 2 ^ w

/-- The 3-bit field from bit `lo` upward. -/
def field3 (op : Byte) (lo : Nat) : Fin 8 := ⟨field op lo 3, Nat.mod_lt _ (by decide)⟩

/-- `v[i]` as a truth value (rule R7). -/
def bit (v : Byte) (i : Nat) : Bool := v.getLsbD i

/-- 0 or 1. -/
def bitNat (b : Bool) : Nat := if b then 1 else 0

/-- `mask` when `b` holds, else no bits. -/
def maskIf (b : Bool) (mask : Byte) : Byte := if b then mask else 0#8

/-- `parity(v)` of rule R8: true when `v` has an even number of 1 bits. -/
def parityEven (v : Byte) : Bool :=
  !(bit v 0 ^^ bit v 1 ^^ bit v 2 ^^ bit v 3 ^^ bit v 4 ^^ bit v 5 ^^ bit v 6 ^^ bit v 7)

/-- The `n` low-order bytes of `v`, least significant first (rule R66 and the file formats of spec/52, spec/53). -/
def leBytes : Nat → Nat → List Byte
  | 0, _ => []
  | n + 1, v => BitVec.ofNat 8 v :: leBytes n (v / 256)

/-- The number a list of bytes stands for, least significant first. -/
def leNat : List Byte → Nat
  | [] => 0
  | b :: bs => b.toNat + 256 * leNat bs

end Sys2Proof
end

