-- ==== Sys2Proof/Syntax.lean ====
section
/-! DEFINITION. Syntax: the instructions of spec/opcode_table.json, one constructor per row of the table, with the
operand fields of spec/30_encoding.md rules R91 .. R96 as types of their own. -/

namespace Sys2Proof

/-- The seven registers of the `r8` operand field (rule R92); code 6, the memory operand, is no register and has
constructors of its own in `Instr`. -/
inductive Reg8 where
  | b | c | d | e | h | l | a
  deriving DecidableEq, Repr

/-- The `rp` operand field (rule R93, Zilog `dd`, `ss`). -/
inductive Rp where
  | bc | de | hl | sp
  deriving DecidableEq, Repr

/-- The `rp2` operand field (rule R93, Zilog `qq`, PUSH and POP only). -/
inductive Rp2 where
  | bc | de | hl | af
  deriving DecidableEq, Repr

/-- The condition field `cc` (rule R94). -/
inductive Cond where
  | nz | z | nc | c | po | pe | p | m
  deriving DecidableEq, Repr

/-- The index register a DD (IX) or FD (IY) byte selects (rules R103, R104). -/
inductive Xy where
  | ix | iy
  deriving DecidableEq, Repr

/-- The half of an index register: XYh or XYl (rules R23, R104). -/
inductive Half where
  | hi | lo
  deriving DecidableEq, Repr

/-- One constructor per row of spec/opcode_table.json.  Immediates `n`, `nn`, displacements `d` and `e` are the raw
operand bytes; `y`, `z` are the raw 3-bit fields where a row's encodings differ in them only (rule R115's aliases), so
that an encoding can be written back as it was read.

The last four groups of the table that are no instructions of their own are here too, as rule R123 lists them: a bare
table or index prefix byte (`prefixCb`, `prefixEd`, `prefixXy`), an undefined ED sub-opcode (`undefinedEd`), and an index
prefix in front of something it does not alter (`xpMain`, `xpEd`, `xpXp`), which holds the instruction it stands before. -/
inductive Instr where
  /-- `NOP`: `00000000` (R356). -/
  | nop
  /-- `EX AF,AF'`: `00001000` (R175). -/
  | exAfAf
  /-- `DJNZ e`: `00010000 eeeeeeee` (R300). -/
  | djnz (e : Byte)
  /-- `JR e`: `00011000 eeeeeeee` (R293). -/
  | jr (e : Byte)
  /-- `JR NZ,e`: `00100000 eeeeeeee` (R297). -/
  | jrNz (e : Byte)
  /-- `JR Z,e`: `00101000 eeeeeeee` (R296). -/
  | jrZ (e : Byte)
  /-- `JR NC,e`: `00110000 eeeeeeee` (R295). -/
  | jrNc (e : Byte)
  /-- `JR C,e`: `00111000 eeeeeeee` (R294). -/
  | jrC (e : Byte)
  /-- `LD rp,nn`: `00pp0001 llllllll hhhhhhhh` (R160). -/
  | ldRpNn (p : Rp) (nn : Word)
  /-- `ADD HL,rp`: `00pp1001` (R230). -/
  | addHlRp (p : Rp)
  /-- `LD (BC),A`: `00000010` (R138). -/
  | ldMemBcA
  /-- `LD (DE),A`: `00010010` (R139). -/
  | ldMemDeA
  /-- `LD (nn),HL`: `00100010 llllllll hhhhhhhh` (R162). -/
  | ldMemNnHl (nn : Word)
  /-- `LD (nn),A`: `00110010 llllllll hhhhhhhh` (R140). -/
  | ldMemNnA (nn : Word)
  /-- `LD A,(BC)`: `00001010` (R135). -/
  | ldAMemBc
  /-- `LD A,(DE)`: `00011010` (R136). -/
  | ldAMemDe
  /-- `LD HL,(nn)`: `00101010 llllllll hhhhhhhh` (R161). -/
  | ldHlMemNn (nn : Word)
  /-- `LD A,(nn)`: `00111010 llllllll hhhhhhhh` (R137). -/
  | ldAMemNn (nn : Word)
  /-- `INC rp`: `00pp0011` (R234). -/
  | incRp (p : Rp)
  /-- `DEC rp`: `00pp1011` (R235). -/
  | decRp (p : Rp)
  /-- `INC r`: `00yyy100` where y != 6 (R203). -/
  | incR (r : Reg8)
  /-- `INC (HL)`: `00110100` (R204). -/
  | incMemHl
  /-- `DEC r`: `00yyy101` where y != 6 (R207). -/
  | decR (r : Reg8)
  /-- `DEC (HL)`: `00110101` (R208). -/
  | decMemHl
  /-- `LD r,n`: `00yyy110 nnnnnnnn` where y != 6 (R131). -/
  | ldRN (r : Reg8) (n : Byte)
  /-- `LD (HL),n`: `00110110 nnnnnnnn` (R134). -/
  | ldMemHlN (n : Byte)
  /-- `RLCA`: `00000111` (R250). -/
  | rlca
  /-- `RRCA`: `00001111` (R252). -/
  | rrca
  /-- `RLA`: `00010111` (R251). -/
  | rla
  /-- `RRA`: `00011111` (R253). -/
  | rra
  /-- `DAA`: `00100111` (R211). -/
  | daa
  /-- `CPL`: `00101111` (R212). -/
  | cpl
  /-- `SCF`: `00110111` (R215). -/
  | scf
  /-- `CCF`: `00111111` (R214). -/
  | ccf
  /-- `LD r,r'`: `01yyyzzz` where y != 6 and z != 6 (R130). -/
  | ldRR (r : Reg8) (q : Reg8)
  /-- `LD r,(HL)`: `01yyy110` where y != 6 (R132). -/
  | ldRMemHl (r : Reg8)
  /-- `LD (HL),r`: `01110zzz` where z != 6 (R133). -/
  | ldMemHlR (r : Reg8)
  /-- `HALT`: `01110110` (R357). -/
  | halt
  /-- `ADD A,r`: `10000zzz` where z != 6 (R195). -/
  | addR (r : Reg8)
  /-- `ADD A,(HL)`: `10000110` (R195). -/
  | addMemHl
  /-- `ADD A,n`: `11000110 nnnnnnnn` (R195). -/
  | addN (n : Byte)
  /-- `ADC A,r`: `10001zzz` where z != 6 (R196). -/
  | adcR (r : Reg8)
  /-- `ADC A,(HL)`: `10001110` (R196). -/
  | adcMemHl
  /-- `ADC A,n`: `11001110 nnnnnnnn` (R196). -/
  | adcN (n : Byte)
  /-- `SUB r`: `10010zzz` where z != 6 (R197). -/
  | subR (r : Reg8)
  /-- `SUB (HL)`: `10010110` (R197). -/
  | subMemHl
  /-- `SUB n`: `11010110 nnnnnnnn` (R197). -/
  | subN (n : Byte)
  /-- `SBC A,r`: `10011zzz` where z != 6 (R198). -/
  | sbcR (r : Reg8)
  /-- `SBC A,(HL)`: `10011110` (R198). -/
  | sbcMemHl
  /-- `SBC A,n`: `11011110 nnnnnnnn` (R198). -/
  | sbcN (n : Byte)
  /-- `AND r`: `10100zzz` where z != 6 (R199). -/
  | andR (r : Reg8)
  /-- `AND (HL)`: `10100110` (R199). -/
  | andMemHl
  /-- `AND n`: `11100110 nnnnnnnn` (R199). -/
  | andN (n : Byte)
  /-- `XOR r`: `10101zzz` where z != 6 (R200). -/
  | xorR (r : Reg8)
  /-- `XOR (HL)`: `10101110` (R200). -/
  | xorMemHl
  /-- `XOR n`: `11101110 nnnnnnnn` (R200). -/
  | xorN (n : Byte)
  /-- `OR r`: `10110zzz` where z != 6 (R201). -/
  | orR (r : Reg8)
  /-- `OR (HL)`: `10110110` (R201). -/
  | orMemHl
  /-- `OR n`: `11110110 nnnnnnnn` (R201). -/
  | orN (n : Byte)
  /-- `CP r`: `10111zzz` where z != 6 (R202). -/
  | cpR (r : Reg8)
  /-- `CP (HL)`: `10111110` (R202). -/
  | cpMemHl
  /-- `CP n`: `11111110 nnnnnnnn` (R202). -/
  | cpN (n : Byte)
  /-- `RET cc`: `11yyy000` (R304). -/
  | retCc (cc : Cond)
  /-- `POP rp2`: `11pp0001` (R167). -/
  | popRp2 (p : Rp2)
  /-- `RET`: `11001001` (R303). -/
  | ret
  /-- `EXX`: `11011001` (R176). -/
  | exx
  /-- `JP (HL)`: `11101001` (R298). -/
  | jpHl
  /-- `LD SP,HL`: `11111001` (R165). -/
  | ldSpHl
  /-- `JP cc,nn`: `11yyy010 llllllll hhhhhhhh` (R292). -/
  | jpCcNn (cc : Cond) (nn : Word)
  /-- `JP nn`: `11000011 llllllll hhhhhhhh` (R291). -/
  | jpNn (nn : Word)
  /-- `OUT (n),A`: `11010011 nnnnnnnn` (R353). -/
  | outNA (n : Byte)
  /-- `IN A,(n)`: `11011011 nnnnnnnn` (R350). -/
  | inAN (n : Byte)
  /-- `EX (SP),HL`: `11100011` (R177). -/
  | exSpHl
  /-- `EX DE,HL`: `11101011` (R174). -/
  | exDeHl
  /-- `DI`: `11110011` (R358). -/
  | di
  /-- `EI`: `11111011` (R359). -/
  | ei
  /-- `CALL cc,nn`: `11yyy100 llllllll hhhhhhhh` (R302). -/
  | callCcNn (cc : Cond) (nn : Word)
  /-- `PUSH rp2`: `11pp0101` (R166). -/
  | pushRp2 (p : Rp2)
  /-- `CALL nn`: `11001101 llllllll hhhhhhhh` (R301). -/
  | callNn (nn : Word)
  /-- `RST 8*y`: `11yyy111` (R307). -/
  | rst (y : Fin 8)
  /-- `prefix CB (selects the cb table; no instruction of its own)`: `11001011` (R112). -/
  | prefixCb
  /-- `prefix ED (selects the ed table; no instruction of its own)`: `11101101` (R113). -/
  | prefixEd
  /-- `prefix DD / FD (index prefix: IX if i = 0, IY if i = 1; the last of a run wins)`: `11i11101` (R103). -/
  | prefixXy (xy : Xy)
  /-- `RLC r`: `11001011 00000zzz` where z != 6 (R256). -/
  | rlcR (r : Reg8)
  /-- `RLC (HL)`: `11001011 00000110` (R256). -/
  | rlcMemHl
  /-- `RRC r`: `11001011 00001zzz` where z != 6 (R257). -/
  | rrcR (r : Reg8)
  /-- `RRC (HL)`: `11001011 00001110` (R257). -/
  | rrcMemHl
  /-- `RL r`: `11001011 00010zzz` where z != 6 (R258). -/
  | rlR (r : Reg8)
  /-- `RL (HL)`: `11001011 00010110` (R258). -/
  | rlMemHl
  /-- `RR r`: `11001011 00011zzz` where z != 6 (R259). -/
  | rrR (r : Reg8)
  /-- `RR (HL)`: `11001011 00011110` (R259). -/
  | rrMemHl
  /-- `SLA r`: `11001011 00100zzz` where z != 6 (R260). -/
  | slaR (r : Reg8)
  /-- `SLA (HL)`: `11001011 00100110` (R260). -/
  | slaMemHl
  /-- `SRA r`: `11001011 00101zzz` where z != 6 (R261). -/
  | sraR (r : Reg8)
  /-- `SRA (HL)`: `11001011 00101110` (R261). -/
  | sraMemHl
  /-- `SLL r`: `11001011 00110zzz` where z != 6 (R262). -/
  | sllR (r : Reg8)
  /-- `SLL (HL)`: `11001011 00110110` (R262). -/
  | sllMemHl
  /-- `SRL r`: `11001011 00111zzz` where z != 6 (R263). -/
  | srlR (r : Reg8)
  /-- `SRL (HL)`: `11001011 00111110` (R263). -/
  | srlMemHl
  /-- `BIT y,r`: `11001011 01yyyzzz` where z != 6 (R270). -/
  | bitR (y : Fin 8) (r : Reg8)
  /-- `BIT y,(HL)`: `11001011 01yyy110` (R271). -/
  | bitMemHl (y : Fin 8)
  /-- `RES y,r`: `11001011 10yyyzzz` where z != 6 (R274). -/
  | resR (y : Fin 8) (r : Reg8)
  /-- `RES y,(HL)`: `11001011 10yyy110` (R274). -/
  | resMemHl (y : Fin 8)
  /-- `SET y,r`: `11001011 11yyyzzz` where z != 6 (R273). -/
  | setR (y : Fin 8) (r : Reg8)
  /-- `SET y,(HL)`: `11001011 11yyy110` (R273). -/
  | setMemHl (y : Fin 8)
  /-- `IN r,(C)`: `11101101 01yyy000` where y != 6 (R351). -/
  | inRC (r : Reg8)
  /-- `IN F,(C)`: `11101101 01110000` (R352). -/
  | inFC
  /-- `OUT (C),r`: `11101101 01yyy001` where y != 6 (R354). -/
  | outCR (r : Reg8)
  /-- `OUT (C),0`: `11101101 01110001` (R355). -/
  | outC0
  /-- `SBC HL,rp`: `11101101 01pp0010` (R232). -/
  | sbcHlRp (p : Rp)
  /-- `ADC HL,rp`: `11101101 01pp1010` (R231). -/
  | adcHlRp (p : Rp)
  /-- `LD (nn),rp`: `11101101 01pp0011 llllllll hhhhhhhh` (R164). -/
  | ldMemNnRp (p : Rp) (nn : Word)
  /-- `LD rp,(nn)`: `11101101 01pp1011 llllllll hhhhhhhh` (R163). -/
  | ldRpMemNn (p : Rp) (nn : Word)
  /-- `NEG`: `11101101 01yyy100` (R213). -/
  | neg (y : Fin 8)
  /-- `RETI`: `11101101 01001101` (R305). -/
  | reti
  /-- `RETN`: `11101101 01yyy101` where y != 1 (R306). -/
  | retn (y : Fin 8)
  /-- `IM 0`: `11101101 01000110` (R360). -/
  | im0
  /-- `IM 1`: `11101101 01010110` (R361). -/
  | im1
  /-- `IM 2`: `11101101 01011110` (R362). -/
  | im2
  /-- `LD I,A`: `11101101 01000111` (R143). -/
  | ldIA
  /-- `LD R,A`: `11101101 01001111` (R144). -/
  | ldRefreshA
  /-- `LD A,I`: `11101101 01010111` (R141). -/
  | ldAI
  /-- `LD A,R`: `11101101 01011111` (R142). -/
  | ldARefresh
  /-- `RRD`: `11101101 01100111` (R265). -/
  | rrd
  /-- `RLD`: `11101101 01101111` (R264). -/
  | rld
  /-- `LDI`: `11101101 10100000` (R321). -/
  | ldi
  /-- `CPI`: `11101101 10100001` (R325). -/
  | cpi
  /-- `INI`: `11101101 10100010` (R329). -/
  | ini
  /-- `OUTI`: `11101101 10100011` (R333). -/
  | outi
  /-- `LDD`: `11101101 10101000` (R323). -/
  | ldd
  /-- `CPD`: `11101101 10101001` (R327). -/
  | cpd
  /-- `IND`: `11101101 10101010` (R331). -/
  | ind
  /-- `OUTD`: `11101101 10101011` (R335). -/
  | outd
  /-- `LDIR`: `11101101 10110000` (R322). -/
  | ldir
  /-- `CPIR`: `11101101 10110001` (R326). -/
  | cpir
  /-- `INIR`: `11101101 10110010` (R330). -/
  | inir
  /-- `OTIR`: `11101101 10110011` (R334). -/
  | otir
  /-- `LDDR`: `11101101 10111000` (R324). -/
  | lddr
  /-- `CPDR`: `11101101 10111001` (R328). -/
  | cpdr
  /-- `INDR`: `11101101 10111010` (R332). -/
  | indr
  /-- `OTDR`: `11101101 10111011` (R336). -/
  | otdr
  /-- `(undefined ED sub-opcode)`: `11101101 oooooooo` where o matched by no other ed row (R114). -/
  | undefinedEd (op : Byte)
  /-- `ADD XY,rp`: `11i11101 00pp1001` (R233). -/
  | addXyRp (xy : Xy) (p : Rp)
  /-- `LD XY,nn`: `11i11101 00100001 llllllll hhhhhhhh` (R168). -/
  | ldXyNn (xy : Xy) (nn : Word)
  /-- `LD (nn),XY`: `11i11101 00100010 llllllll hhhhhhhh` (R170). -/
  | ldMemNnXy (xy : Xy) (nn : Word)
  /-- `INC XY`: `11i11101 00100011` (R236). -/
  | incXy (xy : Xy)
  /-- `INC XYh / INC XYl`: `11i11101 0010k100` (R206). -/
  | incXyHalf (xy : Xy) (k : Half)
  /-- `DEC XYh / DEC XYl`: `11i11101 0010k101` (R210). -/
  | decXyHalf (xy : Xy) (k : Half)
  /-- `LD XYh,n / LD XYl,n`: `11i11101 0010k110 nnnnnnnn` (R149). -/
  | ldXyHalfN (xy : Xy) (k : Half) (n : Byte)
  /-- `LD XY,(nn)`: `11i11101 00101010 llllllll hhhhhhhh` (R169). -/
  | ldXyMemNn (xy : Xy) (nn : Word)
  /-- `DEC XY`: `11i11101 00101011` (R237). -/
  | decXy (xy : Xy)
  /-- `INC (XY+d)`: `11i11101 00110100 dddddddd` (R205). -/
  | incXyd (xy : Xy) (d : Byte)
  /-- `DEC (XY+d)`: `11i11101 00110101 dddddddd` (R209). -/
  | decXyd (xy : Xy) (d : Byte)
  /-- `LD (XY+d),n`: `11i11101 00110110 dddddddd nnnnnnnn` (R147). -/
  | ldXydN (xy : Xy) (d : Byte) (n : Byte)
  /-- `LD r,(XY+d)`: `11i11101 01yyy110 dddddddd` where y != 6 (R145). -/
  | ldRXyd (xy : Xy) (r : Reg8) (d : Byte)
  /-- `LD (XY+d),r`: `11i11101 01110zzz dddddddd` where z != 6 (R146). -/
  | ldXydR (xy : Xy) (d : Byte) (r : Reg8)
  /-- `LD r,r' with XYh/XYl for H/L`: `11i11101 01yyyzzz` where y != 6 and z != 6 and (y in {4,5} or z in {4,5}) (R148). -/
  | ldRRXy (xy : Xy) (r : Reg8) (q : Reg8)
  /-- `ADD A,(XY+d)`: `11i11101 10000110 dddddddd` (R195). -/
  | addXyd (xy : Xy) (d : Byte)
  /-- `ADD A,XYh / ADD A,XYl`: `11i11101 1000010k` (R195). -/
  | addXyHalf (xy : Xy) (k : Half)
  /-- `ADC A,(XY+d)`: `11i11101 10001110 dddddddd` (R196). -/
  | adcXyd (xy : Xy) (d : Byte)
  /-- `ADC A,XYh / ADC A,XYl`: `11i11101 1000110k` (R196). -/
  | adcXyHalf (xy : Xy) (k : Half)
  /-- `SUB (XY+d)`: `11i11101 10010110 dddddddd` (R197). -/
  | subXyd (xy : Xy) (d : Byte)
  /-- `SUB XYh / SUB XYl`: `11i11101 1001010k` (R197). -/
  | subXyHalf (xy : Xy) (k : Half)
  /-- `SBC A,(XY+d)`: `11i11101 10011110 dddddddd` (R198). -/
  | sbcXyd (xy : Xy) (d : Byte)
  /-- `SBC A,XYh / SBC A,XYl`: `11i11101 1001110k` (R198). -/
  | sbcXyHalf (xy : Xy) (k : Half)
  /-- `AND (XY+d)`: `11i11101 10100110 dddddddd` (R199). -/
  | andXyd (xy : Xy) (d : Byte)
  /-- `AND XYh / AND XYl`: `11i11101 1010010k` (R199). -/
  | andXyHalf (xy : Xy) (k : Half)
  /-- `XOR (XY+d)`: `11i11101 10101110 dddddddd` (R200). -/
  | xorXyd (xy : Xy) (d : Byte)
  /-- `XOR XYh / XOR XYl`: `11i11101 1010110k` (R200). -/
  | xorXyHalf (xy : Xy) (k : Half)
  /-- `OR (XY+d)`: `11i11101 10110110 dddddddd` (R201). -/
  | orXyd (xy : Xy) (d : Byte)
  /-- `OR XYh / OR XYl`: `11i11101 1011010k` (R201). -/
  | orXyHalf (xy : Xy) (k : Half)
  /-- `CP (XY+d)`: `11i11101 10111110 dddddddd` (R202). -/
  | cpXyd (xy : Xy) (d : Byte)
  /-- `CP XYh / CP XYl`: `11i11101 1011110k` (R202). -/
  | cpXyHalf (xy : Xy) (k : Half)
  /-- `POP XY`: `11i11101 11100001` (R173). -/
  | popXy (xy : Xy)
  /-- `EX (SP),XY`: `11i11101 11100011` (R178). -/
  | exSpXy (xy : Xy)
  /-- `PUSH XY`: `11i11101 11100101` (R172). -/
  | pushXy (xy : Xy)
  /-- `JP (XY)`: `11i11101 11101001` (R299). -/
  | jpXy (xy : Xy)
  /-- `LD SP,XY`: `11i11101 11111001` (R171). -/
  | ldSpXy (xy : Xy)
  /-- `(index prefix before an unaffected main-table opcode)`: `11i11101 oooooooo` where o matched by no other xp row; o not in {CB, DD, ED, FD} (R363). -/
  | xpMain (xy : Xy) (i : Instr)
  /-- `(index prefix before ED)`: `11i11101 11101101 oooooooo` (R107). -/
  | xpEd (xy : Xy) (i : Instr)
  /-- `(index prefix before another index prefix)`: `11i11101 11j11101` (R103). -/
  | xpXp (xy : Xy) (i : Instr)
  /-- `RLC (XY+d)`: `11i11101 11001011 dddddddd 00000110` (R256). -/
  | rlcXyd (xy : Xy) (d : Byte)
  /-- `RLC (XY+d),r`: `11i11101 11001011 dddddddd 00000zzz` where z != 6 (R275, R256). -/
  | rlcXydR (xy : Xy) (d : Byte) (r : Reg8)
  /-- `RRC (XY+d)`: `11i11101 11001011 dddddddd 00001110` (R257). -/
  | rrcXyd (xy : Xy) (d : Byte)
  /-- `RRC (XY+d),r`: `11i11101 11001011 dddddddd 00001zzz` where z != 6 (R275, R257). -/
  | rrcXydR (xy : Xy) (d : Byte) (r : Reg8)
  /-- `RL (XY+d)`: `11i11101 11001011 dddddddd 00010110` (R258). -/
  | rlXyd (xy : Xy) (d : Byte)
  /-- `RL (XY+d),r`: `11i11101 11001011 dddddddd 00010zzz` where z != 6 (R275, R258). -/
  | rlXydR (xy : Xy) (d : Byte) (r : Reg8)
  /-- `RR (XY+d)`: `11i11101 11001011 dddddddd 00011110` (R259). -/
  | rrXyd (xy : Xy) (d : Byte)
  /-- `RR (XY+d),r`: `11i11101 11001011 dddddddd 00011zzz` where z != 6 (R275, R259). -/
  | rrXydR (xy : Xy) (d : Byte) (r : Reg8)
  /-- `SLA (XY+d)`: `11i11101 11001011 dddddddd 00100110` (R260). -/
  | slaXyd (xy : Xy) (d : Byte)
  /-- `SLA (XY+d),r`: `11i11101 11001011 dddddddd 00100zzz` where z != 6 (R275, R260). -/
  | slaXydR (xy : Xy) (d : Byte) (r : Reg8)
  /-- `SRA (XY+d)`: `11i11101 11001011 dddddddd 00101110` (R261). -/
  | sraXyd (xy : Xy) (d : Byte)
  /-- `SRA (XY+d),r`: `11i11101 11001011 dddddddd 00101zzz` where z != 6 (R275, R261). -/
  | sraXydR (xy : Xy) (d : Byte) (r : Reg8)
  /-- `SLL (XY+d)`: `11i11101 11001011 dddddddd 00110110` (R262). -/
  | sllXyd (xy : Xy) (d : Byte)
  /-- `SLL (XY+d),r`: `11i11101 11001011 dddddddd 00110zzz` where z != 6 (R275, R262). -/
  | sllXydR (xy : Xy) (d : Byte) (r : Reg8)
  /-- `SRL (XY+d)`: `11i11101 11001011 dddddddd 00111110` (R263). -/
  | srlXyd (xy : Xy) (d : Byte)
  /-- `SRL (XY+d),r`: `11i11101 11001011 dddddddd 00111zzz` where z != 6 (R275, R263). -/
  | srlXydR (xy : Xy) (d : Byte) (r : Reg8)
  /-- `BIT y,(XY+d)`: `11i11101 11001011 dddddddd 01yyyzzz` (R272). -/
  | bitXyd (xy : Xy) (d : Byte) (y : Fin 8) (z : Fin 8)
  /-- `RES y,(XY+d)`: `11i11101 11001011 dddddddd 10yyy110` (R274). -/
  | resXyd (xy : Xy) (d : Byte) (y : Fin 8)
  /-- `RES y,(XY+d),r`: `11i11101 11001011 dddddddd 10yyyzzz` where z != 6 (R275, R274). -/
  | resXydR (xy : Xy) (d : Byte) (y : Fin 8) (r : Reg8)
  /-- `SET y,(XY+d)`: `11i11101 11001011 dddddddd 11yyy110` (R273). -/
  | setXyd (xy : Xy) (d : Byte) (y : Fin 8)
  /-- `SET y,(XY+d),r`: `11i11101 11001011 dddddddd 11yyyzzz` where z != 6 (R275, R273). -/
  | setXydR (xy : Xy) (d : Byte) (y : Fin 8) (r : Reg8)
  deriving DecidableEq, Repr

end Sys2Proof
end

