-- ==== Sys2Proof/WellFormed.lean ====
section
/-! DEFINITION. WellFormed: which terms of Instr stand for an encoding of the table: the `where` column of
spec/opcode_table.json (spec/30_encoding.md rules R105, R107, R113, R114, R123). -/

namespace Sys2Proof

/-- The `rp` codes an index register does not replace (rule R104 item 2). -/
def Rp.notHl : Rp → Bool
  | .hl => false
  | _ => true

/-- The `rp2` codes an index register does not replace (rule R104 item 2). -/
def Rp2.notHl : Rp2 → Bool
  | .hl => false
  | _ => true

/-- H and L, the registers an index prefix rewrites to a half of the index register (rule R104 item 2). -/
def Reg8.isHalf : Reg8 → Bool
  | .h | .l => true
  | _ => false

/-- The main-table instructions that an index prefix does not alter: the complement of rule R105's list among the 252
main-table opcodes. -/
def Instr.plainUnderXy : Instr → Bool
  | .nop | .exAfAf | .djnz _ | .jr _ | .jrNz _ | .jrZ _ | .jrNc _ | .jrC _ => true
  | .ldRpNn p _ | .incRp p | .decRp p => p.notHl
  | .ldMemBcA | .ldMemDeA | .ldMemNnA _ | .ldAMemBc | .ldAMemDe | .ldAMemNn _ => true
  | .incR r | .decR r | .ldRN r _ => !r.isHalf
  | .rlca | .rrca | .rla | .rra | .daa | .cpl | .scf | .ccf | .halt => true
  | .ldRR r q => !r.isHalf && !q.isHalf
  | .addR r | .adcR r | .subR r | .sbcR r | .andR r | .xorR r | .orR r | .cpR r => !r.isHalf
  | .addN _ | .adcN _ | .subN _ | .sbcN _ | .andN _ | .xorN _ | .orN _ | .cpN _ => true
  | .retCc _ | .ret | .exx | .jpCcNn _ _ | .jpNn _ | .outNA _ | .inAN _ | .exDeHl | .di | .ei => true
  | .popRp2 p | .pushRp2 p => p.notHl
  | .callCcNn _ _ | .callNn _ | .rst _ => true
  | _ => false

/-- The ED sub-opcodes rule R114 lists as undefined (183 values). -/
def undefinedEdOp (op : Byte) : Bool :=
  let n := op.toNat
  decide (n < 0x40) || n == 0x4E || n == 0x66 || n == 0x6E || n == 0x76 || n == 0x7E || n == 0x77 || n == 0x7F ||
    (decide (0x80 ≤ n) && decide (n ≤ 0x9F)) || (decide (0xA4 ≤ n) && decide (n ≤ 0xA7)) ||
    (decide (0xAC ≤ n) && decide (n ≤ 0xAF)) || (decide (0xB4 ≤ n) && decide (n ≤ 0xB7)) ||
    (decide (0xBC ≤ n) && decide (n ≤ 0xBF)) || decide (0xC0 ≤ n)

/-- The ED-table instructions (rule R113), the undefined sub-opcodes of rule R114 among them. -/
def Instr.isEd : Instr → Bool
  | .inRC _ | .inFC | .outCR _ | .outC0 | .sbcHlRp _ | .adcHlRp _ | .ldMemNnRp _ _ | .ldRpMemNn _ _ => true
  | .neg _ | .reti | .retn _ | .im0 | .im1 | .im2 | .ldIA | .ldRefreshA | .ldAI | .ldARefresh | .rrd | .rld => true
  | .ldi | .cpi | .ini | .outi | .ldd | .cpd | .ind | .outd => true
  | .ldir | .cpir | .inir | .otir | .lddr | .cpdr | .indr | .otdr => true
  | .undefinedEd _ => true
  | _ => false

/-- The instructions whose first byte is an index prefix: the `xp` and `xpcb` tables, and the bare prefix. -/
def Instr.startsWithXy : Instr → Bool
  | .prefixXy _ => true
  | .addXyRp _ _ | .ldXyNn _ _ | .ldMemNnXy _ _ | .incXy _ | .incXyHalf _ _ | .decXyHalf _ _ | .ldXyHalfN _ _ _ => true
  | .ldXyMemNn _ _ | .decXy _ | .incXyd _ _ | .decXyd _ _ | .ldXydN _ _ _ | .ldRXyd _ _ _ | .ldXydR _ _ _ => true
  | .ldRRXy _ _ _ | .addXyd _ _ | .addXyHalf _ _ | .adcXyd _ _ | .adcXyHalf _ _ | .subXyd _ _ => true
  | .subXyHalf _ _ | .sbcXyd _ _ | .sbcXyHalf _ _ | .andXyd _ _ | .andXyHalf _ _ | .xorXyd _ _ => true
  | .xorXyHalf _ _ | .orXyd _ _ | .orXyHalf _ _ | .cpXyd _ _ | .cpXyHalf _ _ | .popXy _ | .exSpXy _ => true
  | .pushXy _ | .jpXy _ | .ldSpXy _ | .xpMain _ _ | .xpEd _ _ | .xpXp _ _ => true
  | .rlcXyd _ _ | .rlcXydR _ _ _ | .rrcXyd _ _ | .rrcXydR _ _ _ | .rlXyd _ _ | .rlXydR _ _ _ => true
  | .rrXyd _ _ | .rrXydR _ _ _ | .slaXyd _ _ | .slaXydR _ _ _ | .sraXyd _ _ | .sraXydR _ _ _ => true
  | .sllXyd _ _ | .sllXydR _ _ _ | .srlXyd _ _ | .srlXydR _ _ _ | .bitXyd _ _ _ _ => true
  | .resXyd _ _ _ | .resXydR _ _ _ _ | .setXyd _ _ _ | .setXydR _ _ _ _ => true
  | _ => false

/-- The checks of the table's `where` column that the types do not make. -/
def Instr.wf : Instr → Bool
  | .retn y => y != 1
  | .undefinedEd op => undefinedEdOp op
  | .ldRRXy _ r q => r.isHalf || q.isHalf
  | .xpMain _ i => i.plainUnderXy
  | .xpEd _ i => i.isEd && i.wf
  | .xpXp _ i => i.startsWithXy && i.wf
  | _ => true

/-- Every byte of the instruction is there: it is no bare prefix byte and no run of index prefixes that ends in one
(rule R111: the prefix bytes are never instructions of their own). -/
def Instr.complete : Instr → Bool
  | .prefixCb | .prefixEd | .prefixXy _ => false
  | .xpXp _ i => i.complete
  | _ => true

/-- How many bytes an instruction has (rule R116): what its table and its operand bytes make it, one more for each index
prefix in front. -/
def Instr.byteCount : Instr → Nat
  | .nop | .exAfAf | .addHlRp _ | .ldMemBcA | .ldMemDeA | .ldAMemBc | .ldAMemDe | .incRp _ | .decRp _ | .incR _ => 1
  | .incMemHl | .decR _ | .decMemHl | .rlca | .rrca | .rla | .rra | .daa | .cpl | .scf | .ccf | .ldRR _ _ => 1
  | .ldRMemHl _ | .ldMemHlR _ | .halt | .addR _ | .addMemHl | .adcR _ | .adcMemHl | .subR _ | .subMemHl | .sbcR _ => 1
  | .sbcMemHl | .andR _ | .andMemHl | .xorR _ | .xorMemHl | .orR _ | .orMemHl | .cpR _ | .cpMemHl | .retCc _ => 1
  | .popRp2 _ | .ret | .exx | .jpHl | .ldSpHl | .exSpHl | .exDeHl | .di | .ei | .pushRp2 _ | .rst _ | .prefixCb => 1
  | .prefixEd | .prefixXy _ => 1
  | .djnz _ | .jr _ | .jrNz _ | .jrZ _ | .jrNc _ | .jrC _ | .ldRN _ _ | .ldMemHlN _ | .addN _ | .adcN _ | .subN _ => 2
  | .sbcN _ | .andN _ | .xorN _ | .orN _ | .cpN _ | .outNA _ | .inAN _ | .rlcR _ | .rlcMemHl | .rrcR _ | .rrcMemHl => 2
  | .rlR _ | .rlMemHl | .rrR _ | .rrMemHl | .slaR _ | .slaMemHl | .sraR _ | .sraMemHl | .sllR _ | .sllMemHl => 2
  | .srlR _ | .srlMemHl | .bitR _ _ | .bitMemHl _ | .resR _ _ | .resMemHl _ | .setR _ _ | .setMemHl _ | .inRC _ => 2
  | .inFC | .outCR _ | .outC0 | .sbcHlRp _ | .adcHlRp _ | .neg _ | .reti | .retn _ | .im0 | .im1 | .im2 | .ldIA => 2
  | .ldRefreshA | .ldAI | .ldARefresh | .rrd | .rld | .ldi | .cpi | .ini | .outi | .ldd | .cpd | .ind | .outd => 2
  | .ldir | .cpir | .inir | .otir | .lddr | .cpdr | .indr | .otdr | .undefinedEd _ | .addXyRp _ _ | .incXy _ => 2
  | .incXyHalf _ _ | .decXyHalf _ _ | .decXy _ | .ldRRXy _ _ _ | .addXyHalf _ _ | .adcXyHalf _ _ | .subXyHalf _ _ => 2
  | .sbcXyHalf _ _ | .andXyHalf _ _ | .xorXyHalf _ _ | .orXyHalf _ _ | .cpXyHalf _ _ | .popXy _ | .exSpXy _ => 2
  | .pushXy _ | .jpXy _ | .ldSpXy _ => 2
  | .ldRpNn _ _ | .ldMemNnHl _ | .ldMemNnA _ | .ldHlMemNn _ | .ldAMemNn _ | .jpCcNn _ _ | .jpNn _ | .callCcNn _ _ => 3
  | .callNn _ | .ldXyHalfN _ _ _ | .incXyd _ _ | .decXyd _ _ | .ldRXyd _ _ _ | .ldXydR _ _ _ | .addXyd _ _ => 3
  | .adcXyd _ _ | .subXyd _ _ | .sbcXyd _ _ | .andXyd _ _ | .xorXyd _ _ | .orXyd _ _ | .cpXyd _ _ => 3
  | .ldMemNnRp _ _ | .ldRpMemNn _ _ | .ldXyNn _ _ | .ldMemNnXy _ _ | .ldXyMemNn _ _ | .ldXydN _ _ _ | .rlcXyd _ _ => 4
  | .rlcXydR _ _ _ | .rrcXyd _ _ | .rrcXydR _ _ _ | .rlXyd _ _ | .rlXydR _ _ _ | .rrXyd _ _ | .rrXydR _ _ _ => 4
  | .slaXyd _ _ | .slaXydR _ _ _ | .sraXyd _ _ | .sraXydR _ _ _ | .sllXyd _ _ | .sllXydR _ _ _ | .srlXyd _ _ => 4
  | .srlXydR _ _ _ | .bitXyd _ _ _ _ | .resXyd _ _ _ | .resXydR _ _ _ _ | .setXyd _ _ _ | .setXydR _ _ _ _ => 4
  | .xpMain _ i => i.byteCount + 1
  | .xpEd _ i => i.byteCount + 1
  | .xpXp _ i => i.byteCount + 1

end Sys2Proof
end

