-- ==== Sys2Proof/Decode.lean ====
section
/-! DEFINITION. Decode: the decoder of spec/30_encoding.md rules R90 .. R116, total on any list of bytes, and after it the
encoder, written from the same maps. -/

namespace Sys2Proof

/-- Why a list of bytes is no instruction.  Memory never gives either (a fetch goes on past 0xFFFF); both are for a list
that ends early.  No byte sequence is refused for its content: the main and CB tables have no hole and an undefined ED
sub-opcode is `Instr.undefinedEd` (rules R111, R112, R114). -/
inductive DecodeError where
  | noBytes
  | truncated
  deriving DecidableEq, Repr

/-- The instruction read and the bytes after it. -/
abbrev Decoded := Except DecodeError (Instr × List Byte)

/-! ## Operand fields (rules R91 .. R96) -/

/-- `r8[k]` (rule R92); code 6 is the memory operand. -/
def Reg8.ofCode (k : Nat) : Option Reg8 :=
  match k with
  | 0 => some .b
  | 1 => some .c
  | 2 => some .d
  | 3 => some .e
  | 4 => some .h
  | 5 => some .l
  | 6 => none
  | _ => some .a

/-- `rp[p]` (rule R93). -/
def Rp.ofCode (p : Nat) : Rp :=
  match p with
  | 0 => .bc
  | 1 => .de
  | 2 => .hl
  | _ => .sp

/-- `rp2[p]` (rule R93). -/
def Rp2.ofCode (p : Nat) : Rp2 :=
  match p with
  | 0 => .bc
  | 1 => .de
  | 2 => .hl
  | _ => .af

/-- `cc[y]` (rule R94). -/
def Cond.ofCode (y : Nat) : Cond :=
  match y with
  | 0 => .nz
  | 1 => .z
  | 2 => .nc
  | 3 => .c
  | 4 => .po
  | 5 => .pe
  | 6 => .p
  | _ => .m

/-- XYh for the codes of H, XYl for those of L (rule R104 item 2). -/
def Half.ofCode (k : Nat) : Option Half :=
  match k with
  | 4 => some .hi
  | 5 => some .lo
  | _ => none

/-! ## Operand bytes (rules R98 .. R101) -/

/-- No operand byte. -/
def just (i : Instr) (rest : List Byte) : Decoded := .ok (i, rest)

/-- One operand byte `n`, `d` or `e`. -/
def withByte (f : Byte → Instr) : List Byte → Decoded
  | n :: rest => .ok (f n, rest)
  | [] => .error .truncated

/-- `d` and then `n` (rule R100). -/
def withTwoBytes (f : Byte → Byte → Instr) : List Byte → Decoded
  | d :: n :: rest => .ok (f d n, rest)
  | _ => .error .truncated

/-- `nn`: the first byte is the low one (rule R99). -/
def withWord (f : Word → Instr) : List Byte → Decoded
  | lo :: hi :: rest => .ok (f (mkWord hi lo), rest)
  | _ => .error .truncated

/-! ## The `alu` and `rot` fields (rules R95, R96) -/

/-- `alu[y] r` (rules R95, R110). -/
def aluR (y : Nat) (r : Reg8) : Instr :=
  match y with
  | 0 => .addR r
  | 1 => .adcR r
  | 2 => .subR r
  | 3 => .sbcR r
  | 4 => .andR r
  | 5 => .xorR r
  | 6 => .orR r
  | _ => .cpR r

/-- `alu[y] (HL)` (rules R95, R110). -/
def aluMemHl (y : Nat) : Instr :=
  match y with
  | 0 => .addMemHl
  | 1 => .adcMemHl
  | 2 => .subMemHl
  | 3 => .sbcMemHl
  | 4 => .andMemHl
  | 5 => .xorMemHl
  | 6 => .orMemHl
  | _ => .cpMemHl

/-- `alu[y] n` (rules R95, R111). -/
def aluN (y : Nat) (n : Byte) : Instr :=
  match y with
  | 0 => .addN n
  | 1 => .adcN n
  | 2 => .subN n
  | 3 => .sbcN n
  | 4 => .andN n
  | 5 => .xorN n
  | 6 => .orN n
  | _ => .cpN n

/-- `alu[y] (XY+d)` (rules R95, R104). -/
def aluXyd (y : Nat) (xy : Xy) (d : Byte) : Instr :=
  match y with
  | 0 => .addXyd xy d
  | 1 => .adcXyd xy d
  | 2 => .subXyd xy d
  | 3 => .sbcXyd xy d
  | 4 => .andXyd xy d
  | 5 => .xorXyd xy d
  | 6 => .orXyd xy d
  | _ => .cpXyd xy d

/-- `alu[y]` on XYh or XYl (rules R95, R104). -/
def aluXyHalf (y : Nat) (xy : Xy) (k : Half) : Instr :=
  match y with
  | 0 => .addXyHalf xy k
  | 1 => .adcXyHalf xy k
  | 2 => .subXyHalf xy k
  | 3 => .sbcXyHalf xy k
  | 4 => .andXyHalf xy k
  | 5 => .xorXyHalf xy k
  | 6 => .orXyHalf xy k
  | _ => .cpXyHalf xy k

/-- `rot[y] r` (rules R96, R112). -/
def rotR (y : Nat) (r : Reg8) : Instr :=
  match y with
  | 0 => .rlcR r
  | 1 => .rrcR r
  | 2 => .rlR r
  | 3 => .rrR r
  | 4 => .slaR r
  | 5 => .sraR r
  | 6 => .sllR r
  | _ => .srlR r

/-- `rot[y] (HL)` (rules R96, R112). -/
def rotMemHl (y : Nat) : Instr :=
  match y with
  | 0 => .rlcMemHl
  | 1 => .rrcMemHl
  | 2 => .rlMemHl
  | 3 => .rrMemHl
  | 4 => .slaMemHl
  | 5 => .sraMemHl
  | 6 => .sllMemHl
  | _ => .srlMemHl

/-- `rot[y] (XY+d)` (rules R96, R106). -/
def rotXyd (y : Nat) (xy : Xy) (d : Byte) : Instr :=
  match y with
  | 0 => .rlcXyd xy d
  | 1 => .rrcXyd xy d
  | 2 => .rlXyd xy d
  | 3 => .rrXyd xy d
  | 4 => .slaXyd xy d
  | 5 => .sraXyd xy d
  | 6 => .sllXyd xy d
  | _ => .srlXyd xy d

/-- `rot[y] (XY+d),r` (rules R96, R106). -/
def rotXydR (y : Nat) (xy : Xy) (d : Byte) (r : Reg8) : Instr :=
  match y with
  | 0 => .rlcXydR xy d r
  | 1 => .rrcXydR xy d r
  | 2 => .rlXydR xy d r
  | 3 => .rrXydR xy d r
  | 4 => .slaXydR xy d r
  | 5 => .sraXydR xy d r
  | 6 => .sllXydR xy d r
  | _ => .srlXydR xy d r

/-! ## The main table (rules R108 .. R111) -/

/-- x = 0 of the main table (rule R108). -/
def decodeX0 (y z : Nat) (rest : List Byte) : Decoded :=
  let p := y / 2
  let q := y % 2
  match z with
  | 0 =>
    match y with
    | 0 => just .nop rest
    | 1 => just .exAfAf rest
    | 2 => withByte .djnz rest
    | 3 => withByte .jr rest
    | 4 => withByte .jrNz rest
    | 5 => withByte .jrZ rest
    | 6 => withByte .jrNc rest
    | _ => withByte .jrC rest
  | 1 =>
    match q with
    | 0 => withWord (.ldRpNn (Rp.ofCode p)) rest
    | _ => just (.addHlRp (Rp.ofCode p)) rest
  | 2 =>
    match y with
    | 0 => just .ldMemBcA rest
    | 1 => just .ldAMemBc rest
    | 2 => just .ldMemDeA rest
    | 3 => just .ldAMemDe rest
    | 4 => withWord .ldMemNnHl rest
    | 5 => withWord .ldHlMemNn rest
    | 6 => withWord .ldMemNnA rest
    | _ => withWord .ldAMemNn rest
  | 3 =>
    match q with
    | 0 => just (.incRp (Rp.ofCode p)) rest
    | _ => just (.decRp (Rp.ofCode p)) rest
  | 4 =>
    match Reg8.ofCode y with
    | some r => just (.incR r) rest
    | none => just .incMemHl rest
  | 5 =>
    match Reg8.ofCode y with
    | some r => just (.decR r) rest
    | none => just .decMemHl rest
  | 6 =>
    match Reg8.ofCode y with
    | some r => withByte (.ldRN r) rest
    | none => withByte .ldMemHlN rest
  | _ =>
    match y with
    | 0 => just .rlca rest
    | 1 => just .rrca rest
    | 2 => just .rla rest
    | 3 => just .rra rest
    | 4 => just .daa rest
    | 5 => just .cpl rest
    | 6 => just .scf rest
    | _ => just .ccf rest

/-- x = 1 of the main table: the 8-bit loads and, at 0x76, HALT (rule R109). -/
def decodeX1 (y z : Nat) (rest : List Byte) : Decoded :=
  match Reg8.ofCode y, Reg8.ofCode z with
  | some r, some q => just (.ldRR r q) rest
  | some r, none => just (.ldRMemHl r) rest
  | none, some q => just (.ldMemHlR q) rest
  | none, none => just .halt rest

/-- x = 2 of the main table (rule R110). -/
def decodeX2 (y z : Nat) (rest : List Byte) : Decoded :=
  match Reg8.ofCode z with
  | some r => just (aluR y r) rest
  | none => just (aluMemHl y) rest

/-- x = 3 of the main table (rule R111).  The four prefix bytes are taken before this map is reached; their places hold
the bare prefix. -/
def decodeX3 (y z : Nat) (rest : List Byte) : Decoded :=
  match z with
  | 0 => just (.retCc (Cond.ofCode y)) rest
  | 1 =>
    match y with
    | 0 => just (.popRp2 (Rp2.ofCode 0)) rest
    | 1 => just .ret rest
    | 2 => just (.popRp2 (Rp2.ofCode 1)) rest
    | 3 => just .exx rest
    | 4 => just (.popRp2 (Rp2.ofCode 2)) rest
    | 5 => just .jpHl rest
    | 6 => just (.popRp2 (Rp2.ofCode 3)) rest
    | _ => just .ldSpHl rest
  | 2 => withWord (.jpCcNn (Cond.ofCode y)) rest
  | 3 =>
    match y with
    | 0 => withWord .jpNn rest
    | 1 => just .prefixCb rest
    | 2 => withByte .outNA rest
    | 3 => withByte .inAN rest
    | 4 => just .exSpHl rest
    | 5 => just .exDeHl rest
    | 6 => just .di rest
    | _ => just .ei rest
  | 4 => withWord (.callCcNn (Cond.ofCode y)) rest
  | 5 =>
    match y with
    | 0 => just (.pushRp2 (Rp2.ofCode 0)) rest
    | 1 => withWord .callNn rest
    | 2 => just (.pushRp2 (Rp2.ofCode 1)) rest
    | 3 => just (.prefixXy .ix) rest
    | 4 => just (.pushRp2 (Rp2.ofCode 2)) rest
    | 5 => just .prefixEd rest
    | 6 => just (.pushRp2 (Rp2.ofCode 3)) rest
    | _ => just (.prefixXy .iy) rest
  | 6 => withByte (aluN y) rest
  | _ => just (.rst (Fin.ofNat 8 y)) rest

/-- The main table (rules R108 .. R111). -/
def decodeMain (op : Byte) (rest : List Byte) : Decoded :=
  let y := field op 3 3
  let z := field op 0 3
  match field op 6 2 with
  | 0 => decodeX0 y z rest
  | 1 => decodeX1 y z rest
  | 2 => decodeX2 y z rest
  | _ => decodeX3 y z rest

/-! ## The CB and ED tables (rules R112 .. R114) -/

/-- The CB table (rule R112). -/
def decodeCb (op : Byte) (rest : List Byte) : Decoded :=
  let y := field op 3 3
  let b := field3 op 3
  match field op 6 2, Reg8.ofCode (field op 0 3) with
  | 0, some r => just (rotR y r) rest
  | 0, none => just (rotMemHl y) rest
  | 1, some r => just (.bitR b r) rest
  | 1, none => just (.bitMemHl b) rest
  | 2, some r => just (.resR b r) rest
  | 2, none => just (.resMemHl b) rest
  | _, some r => just (.setR b r) rest
  | _, none => just (.setMemHl b) rest

/-- x = 1 of the ED table (rule R113). -/
def decodeEdX1 (op : Byte) (rest : List Byte) : Decoded :=
  let y := field op 3 3
  let p := y / 2
  let q := y % 2
  match field op 0 3 with
  | 0 =>
    match Reg8.ofCode y with
    | some r => just (.inRC r) rest
    | none => just .inFC rest
  | 1 =>
    match Reg8.ofCode y with
    | some r => just (.outCR r) rest
    | none => just .outC0 rest
  | 2 =>
    match q with
    | 0 => just (.sbcHlRp (Rp.ofCode p)) rest
    | _ => just (.adcHlRp (Rp.ofCode p)) rest
  | 3 =>
    match q with
    | 0 => withWord (.ldMemNnRp (Rp.ofCode p)) rest
    | _ => withWord (.ldRpMemNn (Rp.ofCode p)) rest
  | 4 => just (.neg (field3 op 3)) rest
  | 5 =>
    match y with
    | 1 => just .reti rest
    | _ => just (.retn (field3 op 3)) rest
  | 6 =>
    match y with
    | 0 => just .im0 rest
    | 2 => just .im1 rest
    | 3 => just .im2 rest
    | _ => just (.undefinedEd op) rest
  | _ =>
    match y with
    | 0 => just .ldIA rest
    | 1 => just .ldRefreshA rest
    | 2 => just .ldAI rest
    | 3 => just .ldARefresh rest
    | 4 => just .rrd rest
    | 5 => just .rld rest
    | _ => just (.undefinedEd op) rest

/-- x = 2 of the ED table: the block instructions at z ≤ 3, y ≥ 4 (rule R113). -/
def decodeEdX2 (op : Byte) (rest : List Byte) : Decoded :=
  match field op 3 3, field op 0 3 with
  | 4, 0 => just .ldi rest
  | 4, 1 => just .cpi rest
  | 4, 2 => just .ini rest
  | 4, 3 => just .outi rest
  | 5, 0 => just .ldd rest
  | 5, 1 => just .cpd rest
  | 5, 2 => just .ind rest
  | 5, 3 => just .outd rest
  | 6, 0 => just .ldir rest
  | 6, 1 => just .cpir rest
  | 6, 2 => just .inir rest
  | 6, 3 => just .otir rest
  | 7, 0 => just .lddr rest
  | 7, 1 => just .cpdr rest
  | 7, 2 => just .indr rest
  | 7, 3 => just .otdr rest
  | _, _ => just (.undefinedEd op) rest

/-- The ED table; every sub-opcode with no entry is undefined (rules R113, R114). -/
def decodeEd (op : Byte) (rest : List Byte) : Decoded :=
  match field op 6 2 with
  | 1 => decodeEdX1 op rest
  | 2 => decodeEdX2 op rest
  | _ => just (.undefinedEd op) rest

/-! ## Under an index prefix (rules R104 .. R106) -/

/-- The indexed bit table: the displacement stands before the sub-opcode (rule R106). -/
def decodeXyCb (xy : Xy) : List Byte → Decoded
  | d :: op :: rest =>
    let y := field op 3 3
    let b := field3 op 3
    match field op 6 2, Reg8.ofCode (field op 0 3) with
    | 0, none => just (rotXyd y xy d) rest
    | 0, some r => just (rotXydR y xy d r) rest
    | 1, _ => just (.bitXyd xy d b (field3 op 0)) rest
    | 2, none => just (.resXyd xy d b) rest
    | 2, some r => just (.resXydR xy d b r) rest
    | _, none => just (.setXyd xy d b) rest
    | _, some r => just (.setXydR xy d b r) rest
  | _ => .error .truncated

/-- The main-table opcodes an index prefix alters, with what they become (rules R104, R105); none for an opcode it does
not alter. -/
def decodeXyMain (xy : Xy) (op : Byte) (rest : List Byte) : Option Decoded :=
  let y := field op 3 3
  let z := field op 0 3
  match field op 6 2 with
  | 0 =>
    match z with
    | 1 =>
      match y with
      | 4 => some (withWord (.ldXyNn xy) rest)
      | 1 => some (just (.addXyRp xy .bc) rest)
      | 3 => some (just (.addXyRp xy .de) rest)
      | 5 => some (just (.addXyRp xy .hl) rest)
      | 7 => some (just (.addXyRp xy .sp) rest)
      | _ => none
    | 2 =>
      match y with
      | 4 => some (withWord (.ldMemNnXy xy) rest)
      | 5 => some (withWord (.ldXyMemNn xy) rest)
      | _ => none
    | 3 =>
      match y with
      | 4 => some (just (.incXy xy) rest)
      | 5 => some (just (.decXy xy) rest)
      | _ => none
    | 4 =>
      match y with
      | 4 => some (just (.incXyHalf xy .hi) rest)
      | 5 => some (just (.incXyHalf xy .lo) rest)
      | 6 => some (withByte (.incXyd xy) rest)
      | _ => none
    | 5 =>
      match y with
      | 4 => some (just (.decXyHalf xy .hi) rest)
      | 5 => some (just (.decXyHalf xy .lo) rest)
      | 6 => some (withByte (.decXyd xy) rest)
      | _ => none
    | 6 =>
      match y with
      | 4 => some (withByte (.ldXyHalfN xy .hi) rest)
      | 5 => some (withByte (.ldXyHalfN xy .lo) rest)
      | 6 => some (withTwoBytes (.ldXydN xy) rest)
      | _ => none
    | _ => none
  | 1 =>
    match Reg8.ofCode y, Reg8.ofCode z with
    | some r, some q => if r.isHalf || q.isHalf then some (just (.ldRRXy xy r q) rest) else none
    | some r, none => some (withByte (.ldRXyd xy r) rest)
    | none, some q => some (withByte (fun d => .ldXydR xy d q) rest)
    | none, none => none
  | 2 =>
    match Half.ofCode z with
    | some k => some (just (aluXyHalf y xy k) rest)
    | none => if z = 6 then some (withByte (aluXyd y xy) rest) else none
  | _ =>
    match y, z with
    | 4, 1 => some (just (.popXy xy) rest)
    | 4, 3 => some (just (.exSpXy xy) rest)
    | 4, 5 => some (just (.pushXy xy) rest)
    | 5, 1 => some (just (.jpXy xy) rest)
    | 7, 1 => some (just (.ldSpXy xy) rest)
    | _, _ => none

/-- Put an index prefix in front of what was read. -/
def Decoded.under (f : Instr → Instr) (x : Decoded) : Decoded :=
  match x with
  | .ok (i, rest) => .ok (f i, rest)
  | .error e => .error e

/-- What follows one index prefix byte: another one (the later wins, rule R103), the indexed bit table, the ED table
unchanged (rule R107), an opcode the prefix alters, or one it does not (rule R363). -/
def decodeAfterXy (xy : Xy) : List Byte → Decoded
  | [] => .ok (.prefixXy xy, [])
  | op :: rest =>
    if op = 0xDD#8 then (decodeAfterXy .ix rest).under (.xpXp xy)
    else if op = 0xFD#8 then (decodeAfterXy .iy rest).under (.xpXp xy)
    else if op = 0xCB#8 then decodeXyCb xy rest
    else if op = 0xED#8 then
      match rest with
      | op2 :: rest' => (decodeEd op2 rest').under (.xpEd xy)
      | [] => .error .truncated
    else
      match decodeXyMain xy op rest with
      | some x => x
      | none => (decodeMain op rest).under (.xpMain xy)

/-- The decoder (rule R102's dispatch): the instruction at the head of a list of bytes and the bytes after it.  A prefix
byte with nothing after it is the bare prefix. -/
def decode : List Byte → Decoded
  | [] => .error .noBytes
  | op :: rest =>
    if op = 0xDD#8 then decodeAfterXy .ix rest
    else if op = 0xFD#8 then decodeAfterXy .iy rest
    else if op = 0xCB#8 then
      match rest with
      | op2 :: rest' => decodeCb op2 rest'
      | [] => .ok (.prefixCb, [])
    else if op = 0xED#8 then
      match rest with
      | op2 :: rest' => decodeEd op2 rest'
      | [] => .ok (.prefixEd, [])
    else decodeMain op rest

/-- The longest instruction with one index prefix: `XP ED OP nn`, and a byte to spare. -/
def longestEncoding : Nat := 6

/-- The bytes of a row of `nbits` bits as spec/opcode_table.json numbers them: the table reads the bytes of a row as ONE
number with the first byte in the highest bits (its `match`, `fixed` and `fields`; log 20), so the first byte in memory is
bits `nbits - 1 .. nbits - 8`. -/
def rowBytes (nbits w : Nat) : List Byte := (leBytes (nbits / 8) w).reverse

/-- The same with zero bytes after them, up to the longest instruction. -/
def tableBytes (nbits w : Nat) : List Byte :=
  rowBytes nbits w ++ List.replicate (longestEncoding - nbits / 8) 0#8

/-- What the decoder reads from a row's word: from the row's own bytes and, where the instruction goes on after them (an
operand of the instruction behind an index prefix), from those followed by zeros. -/
def decodeTableWord (nbits w : Nat) : Option Instr :=
  match decode (rowBytes nbits w) with
  | .ok (i, _) => some i
  | .error _ =>
    match decode (tableBytes nbits w) with
    | .ok (i, _) => some i
    | .error _ => none

/-! ## The encoder -/

/-- The code of `r8[k]` (rule R92). -/
def Reg8.code : Reg8 → Nat
  | .b => 0
  | .c => 1
  | .d => 2
  | .e => 3
  | .h => 4
  | .l => 5
  | .a => 7

/-- The code of `rp[p]` (rule R93). -/
def Rp.code : Rp → Nat
  | .bc => 0
  | .de => 1
  | .hl => 2
  | .sp => 3

/-- The code of `rp2[p]` (rule R93). -/
def Rp2.code : Rp2 → Nat
  | .bc => 0
  | .de => 1
  | .hl => 2
  | .af => 3

/-- The code of `cc[y]` (rule R94). -/
def Cond.code : Cond → Nat
  | .nz => 0
  | .z => 1
  | .nc => 2
  | .c => 3
  | .po => 4
  | .pe => 5
  | .p => 6
  | .m => 7

/-- XYh stands where H does, XYl where L does (rule R104). -/
def Half.code : Half → Nat
  | .hi => 4
  | .lo => 5

/-- The prefix byte: DD for IX, FD for IY (rule R103). -/
def Xy.byte : Xy → Byte
  | .ix => 0xDD#8
  | .iy => 0xFD#8

/-- An opcode byte from its fields x, y, z (rule R91). -/
def op3 (x y z : Nat) : Byte := BitVec.ofNat 8 (64 * x + 8 * y + z)

/-- An opcode byte from its fields x, p, q, z (rule R91). -/
def op2 (x p q z : Nat) : Byte := BitVec.ofNat 8 (64 * x + 16 * p + 8 * q + z)

/-- The bytes of an instruction in memory order, from the maps of rules R97, R106, R108 .. R113. -/
def encode : Instr → List Byte
  | .nop => [0x00#8]
  | .exAfAf => [0x08#8]
  | .djnz e => [0x10#8, e]
  | .jr e => [0x18#8, e]
  | .jrNz e => [0x20#8, e]
  | .jrZ e => [0x28#8, e]
  | .jrNc e => [0x30#8, e]
  | .jrC e => [0x38#8, e]
  | .ldRpNn p nn => [op2 0 p.code 0 1, loByte nn, hiByte nn]
  | .addHlRp p => [op2 0 p.code 1 1]
  | .ldMemBcA => [0x02#8]
  | .ldMemDeA => [0x12#8]
  | .ldMemNnHl nn => [0x22#8, loByte nn, hiByte nn]
  | .ldMemNnA nn => [0x32#8, loByte nn, hiByte nn]
  | .ldAMemBc => [0x0A#8]
  | .ldAMemDe => [0x1A#8]
  | .ldHlMemNn nn => [0x2A#8, loByte nn, hiByte nn]
  | .ldAMemNn nn => [0x3A#8, loByte nn, hiByte nn]
  | .incRp p => [op2 0 p.code 0 3]
  | .decRp p => [op2 0 p.code 1 3]
  | .incR r => [op3 0 r.code 4]
  | .incMemHl => [0x34#8]
  | .decR r => [op3 0 r.code 5]
  | .decMemHl => [0x35#8]
  | .ldRN r n => [op3 0 r.code 6, n]
  | .ldMemHlN n => [0x36#8, n]
  | .rlca => [0x07#8]
  | .rrca => [0x0F#8]
  | .rla => [0x17#8]
  | .rra => [0x1F#8]
  | .daa => [0x27#8]
  | .cpl => [0x2F#8]
  | .scf => [0x37#8]
  | .ccf => [0x3F#8]
  | .ldRR r q => [op3 1 r.code q.code]
  | .ldRMemHl r => [op3 1 r.code 6]
  | .ldMemHlR r => [op3 1 6 r.code]
  | .halt => [0x76#8]
  | .addR r => [op3 2 0 r.code]
  | .addMemHl => [op3 2 0 6]
  | .addN n => [op3 3 0 6, n]
  | .adcR r => [op3 2 1 r.code]
  | .adcMemHl => [op3 2 1 6]
  | .adcN n => [op3 3 1 6, n]
  | .subR r => [op3 2 2 r.code]
  | .subMemHl => [op3 2 2 6]
  | .subN n => [op3 3 2 6, n]
  | .sbcR r => [op3 2 3 r.code]
  | .sbcMemHl => [op3 2 3 6]
  | .sbcN n => [op3 3 3 6, n]
  | .andR r => [op3 2 4 r.code]
  | .andMemHl => [op3 2 4 6]
  | .andN n => [op3 3 4 6, n]
  | .xorR r => [op3 2 5 r.code]
  | .xorMemHl => [op3 2 5 6]
  | .xorN n => [op3 3 5 6, n]
  | .orR r => [op3 2 6 r.code]
  | .orMemHl => [op3 2 6 6]
  | .orN n => [op3 3 6 6, n]
  | .cpR r => [op3 2 7 r.code]
  | .cpMemHl => [op3 2 7 6]
  | .cpN n => [op3 3 7 6, n]
  | .retCc cc => [op3 3 cc.code 0]
  | .popRp2 p => [op2 3 p.code 0 1]
  | .ret => [0xC9#8]
  | .exx => [0xD9#8]
  | .jpHl => [0xE9#8]
  | .ldSpHl => [0xF9#8]
  | .jpCcNn cc nn => [op3 3 cc.code 2, loByte nn, hiByte nn]
  | .jpNn nn => [0xC3#8, loByte nn, hiByte nn]
  | .outNA n => [0xD3#8, n]
  | .inAN n => [0xDB#8, n]
  | .exSpHl => [0xE3#8]
  | .exDeHl => [0xEB#8]
  | .di => [0xF3#8]
  | .ei => [0xFB#8]
  | .callCcNn cc nn => [op3 3 cc.code 4, loByte nn, hiByte nn]
  | .pushRp2 p => [op2 3 p.code 0 5]
  | .callNn nn => [0xCD#8, loByte nn, hiByte nn]
  | .rst y => [op3 3 y.val 7]
  | .prefixCb => [0xCB#8]
  | .prefixEd => [0xED#8]
  | .prefixXy xy => [xy.byte]
  | .rlcR r => [0xCB#8, op3 0 0 r.code]
  | .rlcMemHl => [0xCB#8, op3 0 0 6]
  | .rrcR r => [0xCB#8, op3 0 1 r.code]
  | .rrcMemHl => [0xCB#8, op3 0 1 6]
  | .rlR r => [0xCB#8, op3 0 2 r.code]
  | .rlMemHl => [0xCB#8, op3 0 2 6]
  | .rrR r => [0xCB#8, op3 0 3 r.code]
  | .rrMemHl => [0xCB#8, op3 0 3 6]
  | .slaR r => [0xCB#8, op3 0 4 r.code]
  | .slaMemHl => [0xCB#8, op3 0 4 6]
  | .sraR r => [0xCB#8, op3 0 5 r.code]
  | .sraMemHl => [0xCB#8, op3 0 5 6]
  | .sllR r => [0xCB#8, op3 0 6 r.code]
  | .sllMemHl => [0xCB#8, op3 0 6 6]
  | .srlR r => [0xCB#8, op3 0 7 r.code]
  | .srlMemHl => [0xCB#8, op3 0 7 6]
  | .bitR y r => [0xCB#8, op3 1 y.val r.code]
  | .bitMemHl y => [0xCB#8, op3 1 y.val 6]
  | .resR y r => [0xCB#8, op3 2 y.val r.code]
  | .resMemHl y => [0xCB#8, op3 2 y.val 6]
  | .setR y r => [0xCB#8, op3 3 y.val r.code]
  | .setMemHl y => [0xCB#8, op3 3 y.val 6]
  | .inRC r => [0xED#8, op3 1 r.code 0]
  | .inFC => [0xED#8, 0x70#8]
  | .outCR r => [0xED#8, op3 1 r.code 1]
  | .outC0 => [0xED#8, 0x71#8]
  | .sbcHlRp p => [0xED#8, op2 1 p.code 0 2]
  | .adcHlRp p => [0xED#8, op2 1 p.code 1 2]
  | .ldMemNnRp p nn => [0xED#8, op2 1 p.code 0 3, loByte nn, hiByte nn]
  | .ldRpMemNn p nn => [0xED#8, op2 1 p.code 1 3, loByte nn, hiByte nn]
  | .neg y => [0xED#8, op3 1 y.val 4]
  | .reti => [0xED#8, 0x4D#8]
  | .retn y => [0xED#8, op3 1 y.val 5]
  | .im0 => [0xED#8, 0x46#8]
  | .im1 => [0xED#8, 0x56#8]
  | .im2 => [0xED#8, 0x5E#8]
  | .ldIA => [0xED#8, 0x47#8]
  | .ldRefreshA => [0xED#8, 0x4F#8]
  | .ldAI => [0xED#8, 0x57#8]
  | .ldARefresh => [0xED#8, 0x5F#8]
  | .rrd => [0xED#8, 0x67#8]
  | .rld => [0xED#8, 0x6F#8]
  | .ldi => [0xED#8, 0xA0#8]
  | .cpi => [0xED#8, 0xA1#8]
  | .ini => [0xED#8, 0xA2#8]
  | .outi => [0xED#8, 0xA3#8]
  | .ldd => [0xED#8, 0xA8#8]
  | .cpd => [0xED#8, 0xA9#8]
  | .ind => [0xED#8, 0xAA#8]
  | .outd => [0xED#8, 0xAB#8]
  | .ldir => [0xED#8, 0xB0#8]
  | .cpir => [0xED#8, 0xB1#8]
  | .inir => [0xED#8, 0xB2#8]
  | .otir => [0xED#8, 0xB3#8]
  | .lddr => [0xED#8, 0xB8#8]
  | .cpdr => [0xED#8, 0xB9#8]
  | .indr => [0xED#8, 0xBA#8]
  | .otdr => [0xED#8, 0xBB#8]
  | .undefinedEd op => [0xED#8, op]
  | .addXyRp xy p => [xy.byte, op2 0 p.code 1 1]
  | .ldXyNn xy nn => [xy.byte, 0x21#8, loByte nn, hiByte nn]
  | .ldMemNnXy xy nn => [xy.byte, 0x22#8, loByte nn, hiByte nn]
  | .incXy xy => [xy.byte, 0x23#8]
  | .incXyHalf xy k => [xy.byte, op3 0 k.code 4]
  | .decXyHalf xy k => [xy.byte, op3 0 k.code 5]
  | .ldXyHalfN xy k n => [xy.byte, op3 0 k.code 6, n]
  | .ldXyMemNn xy nn => [xy.byte, 0x2A#8, loByte nn, hiByte nn]
  | .decXy xy => [xy.byte, 0x2B#8]
  | .incXyd xy d => [xy.byte, 0x34#8, d]
  | .decXyd xy d => [xy.byte, 0x35#8, d]
  | .ldXydN xy d n => [xy.byte, 0x36#8, d, n]
  | .ldRXyd xy r d => [xy.byte, op3 1 r.code 6, d]
  | .ldXydR xy d r => [xy.byte, op3 1 6 r.code, d]
  | .ldRRXy xy r q => [xy.byte, op3 1 r.code q.code]
  | .addXyd xy d => [xy.byte, op3 2 0 6, d]
  | .addXyHalf xy k => [xy.byte, op3 2 0 k.code]
  | .adcXyd xy d => [xy.byte, op3 2 1 6, d]
  | .adcXyHalf xy k => [xy.byte, op3 2 1 k.code]
  | .subXyd xy d => [xy.byte, op3 2 2 6, d]
  | .subXyHalf xy k => [xy.byte, op3 2 2 k.code]
  | .sbcXyd xy d => [xy.byte, op3 2 3 6, d]
  | .sbcXyHalf xy k => [xy.byte, op3 2 3 k.code]
  | .andXyd xy d => [xy.byte, op3 2 4 6, d]
  | .andXyHalf xy k => [xy.byte, op3 2 4 k.code]
  | .xorXyd xy d => [xy.byte, op3 2 5 6, d]
  | .xorXyHalf xy k => [xy.byte, op3 2 5 k.code]
  | .orXyd xy d => [xy.byte, op3 2 6 6, d]
  | .orXyHalf xy k => [xy.byte, op3 2 6 k.code]
  | .cpXyd xy d => [xy.byte, op3 2 7 6, d]
  | .cpXyHalf xy k => [xy.byte, op3 2 7 k.code]
  | .popXy xy => [xy.byte, 0xE1#8]
  | .exSpXy xy => [xy.byte, 0xE3#8]
  | .pushXy xy => [xy.byte, 0xE5#8]
  | .jpXy xy => [xy.byte, 0xE9#8]
  | .ldSpXy xy => [xy.byte, 0xF9#8]
  | .xpMain xy i => xy.byte :: encode i
  | .xpEd xy i => xy.byte :: encode i
  | .xpXp xy i => xy.byte :: encode i
  | .rlcXyd xy d => [xy.byte, 0xCB#8, d, op3 0 0 6]
  | .rlcXydR xy d r => [xy.byte, 0xCB#8, d, op3 0 0 r.code]
  | .rrcXyd xy d => [xy.byte, 0xCB#8, d, op3 0 1 6]
  | .rrcXydR xy d r => [xy.byte, 0xCB#8, d, op3 0 1 r.code]
  | .rlXyd xy d => [xy.byte, 0xCB#8, d, op3 0 2 6]
  | .rlXydR xy d r => [xy.byte, 0xCB#8, d, op3 0 2 r.code]
  | .rrXyd xy d => [xy.byte, 0xCB#8, d, op3 0 3 6]
  | .rrXydR xy d r => [xy.byte, 0xCB#8, d, op3 0 3 r.code]
  | .slaXyd xy d => [xy.byte, 0xCB#8, d, op3 0 4 6]
  | .slaXydR xy d r => [xy.byte, 0xCB#8, d, op3 0 4 r.code]
  | .sraXyd xy d => [xy.byte, 0xCB#8, d, op3 0 5 6]
  | .sraXydR xy d r => [xy.byte, 0xCB#8, d, op3 0 5 r.code]
  | .sllXyd xy d => [xy.byte, 0xCB#8, d, op3 0 6 6]
  | .sllXydR xy d r => [xy.byte, 0xCB#8, d, op3 0 6 r.code]
  | .srlXyd xy d => [xy.byte, 0xCB#8, d, op3 0 7 6]
  | .srlXydR xy d r => [xy.byte, 0xCB#8, d, op3 0 7 r.code]
  | .bitXyd xy d y z => [xy.byte, 0xCB#8, d, op3 1 y.val z.val]
  | .resXyd xy d y => [xy.byte, 0xCB#8, d, op3 2 y.val 6]
  | .resXydR xy d y r => [xy.byte, 0xCB#8, d, op3 2 y.val r.code]
  | .setXyd xy d y => [xy.byte, 0xCB#8, d, op3 3 y.val 6]
  | .setXydR xy d y r => [xy.byte, 0xCB#8, d, op3 3 y.val r.code]

end Sys2Proof
end

