-- ==== Sys2Proof/Config.lean ====
section
/-! DEFINITION. Config: the parameters of spec/00_scope.md rule R5, the configuration record of spec/10_state.md rule
R51, and the free values the spec leaves open (spec/93_implementation_defined.md U1, U21, and rules R464, R517, R519). -/

namespace Sys2Proof

namespace Config

/-! The parameters of rule R5 that the spec fixes or decides. -/

/-- `MEM_SIZE`: bytes of memory. -/
def memSize : Nat := 65536
/-- `ROM_SIZE`: the read-only bytes 0x0000 .. 0x3FFF. -/
def romSize : Nat := 16384
/-- `CPU_HZ`: T-states per second. -/
def cpuHz : Nat := 3500000
/-- `FRAME_TSTATES`: T-states per video frame. -/
def frameTStates : Nat := 69888
/-- `INT_DATA_BYTE`: the byte the main loop passes to the interrupt. -/
def intDataByte : Byte := 0xFF#8
/-- `ULA_QUEUE_CAP` (decision D22). -/
def ulaQueueCap : Nat := 64
/-- `BEEPER_RING_CAP` (decision D22). -/
def beeperRingCap : Nat := 8192
/-- `AMPLITUDE` of the beeper (decision D24). -/
def amplitude : Int := 2000
/-- `ALPHA` of the DC-blocking filter (decision D24). -/
def alpha : Rat := 199 / 200
/-- `REWIND_TOL_SAMPLES` (decision D25). -/
def rewindTolSamples : Nat := 8
/-- `IDLE_SILENCE_SAMPLES` (decision D25). -/
def idleSilenceSamples : Nat := 512
/-- `PILOT_T`: duration of a pilot pulse. -/
def pilotT : Nat := 2168
/-- `SYNC1_T`. -/
def sync1T : Nat := 667
/-- `SYNC2_T`. -/
def sync2T : Nat := 735
/-- `BIT0_T`: each of the two pulses of a 0 bit. -/
def bit0T : Nat := 855
/-- `BIT1_T`: each of the two pulses of a 1 bit. -/
def bit1T : Nat := 1710
/-- `PILOT_HEADER`: pilot pulses before a header block. -/
def pilotHeader : Nat := 8063
/-- `PILOT_DATA`: pilot pulses before any other block. -/
def pilotData : Nat := 3223
/-- `TSTATES_PER_MS`. -/
def tstatesPerMs : Nat := 3500
/-- `TAP_DEFAULT_PAUSE_MS` (decision D27). -/
def tapDefaultPauseMs : Nat := 1000
/-- `REC_IDLE_TSTATES` (decision D31). -/
def recIdleTStates : Nat := 350000
/-- `REC_MIN_PULSES`: the fewest pulses a TAP decode is attempted on. -/
def recMinPulses : Nat := 100
/-- `DEC_MIN_PILOT`: the fewest pilot pulses the decoder accepts. -/
def decMinPilot : Nat := 100

/-! Free values: constants without a body, so nothing can be proved of what they are. -/

/-- The bits S, Y, H, X, P/V that a block I/O instruction leaves in F (rule R337, U1), one draw per execution. Only the
bits of mask 0xBC are used. -/
opaque freeIoFlags : Nat → Byte

/-- What the recorder's destination file holds after a failed write-out (rule R520, U21), one draw per failure. -/
opaque freeFile : Nat → Option (List Byte)

/-- What a 32-bit pulse duration holds when the exact duration, the argument, does not fit (rule R464, log 21). -/
opaque freeDuration : Nat → U32

/-- What a u32 field of a WAV file holds when its value, the argument, does not fit (rules R517, R519, log 24). -/
opaque freeField : Nat → U32

end Config

/-- The format of the tape input file, or none (rule R51). -/
inductive TapeFormat where
  | none | tap | tzx | wav
  deriving DecidableEq, Repr

/-- The format of the recorder's destination, or none (rule R51). -/
inductive RecFormat where
  | none | tap | wav
  deriving DecidableEq, Repr

/-- The format of a recording session (rule R47). -/
inductive SessionFormat where
  | tap | wav
  deriving DecidableEq, Repr

/-- The configuration record (rule R51) with the open parameters of rule R5; set before reset, constant afterwards. -/
structure MachineConfig where
  /-- `SAMPLE_RATE`, a positive integer, open. -/
  sampleRate : Nat
  /-- `REC_SAMPLE_RATE`, a positive integer, open. -/
  recSampleRate : Nat
  /-- `REC_AMPLITUDE`, 1 .. 32767, open. -/
  recAmplitude : Int
  /-- `THROTTLE_THRESHOLD`, open; no rule reads it (rule R547). -/
  throttleThreshold : Nat
  tapeInputPath : String
  tapeInputFormat : TapeFormat
  recorderOutputPath : String
  recorderOutputFormat : RecFormat
  /-- A name only: no rule reads it (rule R551). -/
  audioDumpPath : String
  /-- A name only: no rule reads it (rule R551). -/
  tapeDebug : Bool
  /-- A name only: no rule reads it (rule R551). -/
  beeperLog : Bool
  deriving DecidableEq, Repr

/-- The ranges rule R5 and spec/92_eei_decisions.md §7 give the open parameters. -/
def MachineConfig.wf (c : MachineConfig) : Bool :=
  decide (0 < c.sampleRate) && decide (0 < c.recSampleRate) &&
    decide (1 ≤ c.recAmplitude) && decide (c.recAmplitude ≤ 32767)

/-- The configuration at `State.reset`: no tape, no recorder destination, and 44,100 Hz, the rate of every example of the
spec.
DESIGN CHOICE (log 7): the spec leaves these open. -/
def MachineConfig.default : MachineConfig :=
  { sampleRate := 44100, recSampleRate := 44100, recAmplitude := 2000, throttleThreshold := 0,
    tapeInputPath := "", tapeInputFormat := .none, recorderOutputPath := "", recorderOutputFormat := .none,
    audioDumpPath := "", tapeDebug := false, beeperLog := false }

end Sys2Proof
end

