-- ==== Sys2Proof/Machine/State.lean ====
section
/-! DEFINITION. State: every piece of state spec/10_state.md gives the machine, as plain data, with the reasons a step can
stop and the state after reset (rule R49). -/

namespace Sys2Proof.Machine

/-! ## The CPU (rules R20 .. R34) -/

/-- The interrupt mode (rule R32). -/
inductive IntMode where
  | im0 | im1 | im2
  deriving DecidableEq, Repr

/-- The registers of the Z80 core (rules R20 .. R34); pairs are views of the 8-bit registers (rule R21). -/
structure Cpu where
  a : Byte
  f : Byte
  b : Byte
  c : Byte
  d : Byte
  e : Byte
  h : Byte
  l : Byte
  /-- A' (rule R22). -/
  aAlt : Byte
  /-- F' (rule R22). -/
  fAlt : Byte
  bAlt : Byte
  cAlt : Byte
  dAlt : Byte
  eAlt : Byte
  hAlt : Byte
  lAlt : Byte
  ix : Word
  iy : Word
  sp : Word
  pc : Word
  /-- The interrupt vector page (rule R28). -/
  i : Byte
  /-- The refresh counter (rule R29). -/
  r : Byte
  iff1 : Bool
  iff2 : Bool
  /-- EI's one-shot (rule R31). -/
  eiDelay : Bool
  im : IntMode
  halted : Bool
  deriving DecidableEq, Repr

/-- The variables of one step (rules R36, R102): `tBase`, the running count `t`, the address `start` of the instruction's
first byte, and the last index prefix met.  They are written when a step begins; between steps they keep what the last
step left, and nothing reads them (log 10). -/
structure Cursor where
  tBase : Nat
  t : Nat
  start : Word
  lastXy : Option Xy
  deriving DecidableEq, Repr

/-- The record of the fatal fault (rules R48, R560). -/
structure FaultRecord where
  addr : Word
  xyByte : Option Xy
  bytes : List Byte
  deriving DecidableEq, Repr

/-! ## Memory (rules R38, R60 .. R63) -/

/-- Memory as the list of its cells that differ from what an unlisted address reads as, addresses strictly rising. -/
abbrev Memory := List Host.Cell

/-- What an address that is not listed reads as.
DESIGN CHOICE (log 3): the spec leaves RAM at power-on unspecified and the ROM image to the host; the model reads 0. -/
def Memory.unlisted : Byte := 0#8

/-- Addresses strictly rising from `lo` on, below 65,536, no entry equal to what an unlisted address reads as. -/
def Memory.wfFrom : Nat → Memory → Bool
  | _, [] => true
  | lo, (k, v) :: rest =>
    decide (lo ≤ k) && decide (k < Config.memSize) && (v != Memory.unlisted) && Memory.wfFrom (k + 1) rest

/-- The canonical form: equal memories are equal lists. -/
def Memory.wf (m : Memory) : Bool := Memory.wfFrom 0 m

/-! ## The devices -/

/-- A time-stamped port write (rule R41). -/
structure UlaEvent where
  value : Byte
  tState : Nat
  deriving DecidableEq, Repr

/-- The ULA latches and its write queue, oldest event first (rules R40, R41). -/
structure Ula where
  border : BitVec 3
  beeperLevel : Bool
  micLevel : Bool
  queue : List UlaEvent
  lastT : Nat
  deriving DecidableEq, Repr

/-- A change of the speaker level (rule R42). -/
structure BeeperEvent where
  tState : Nat
  level : Bool
  deriving DecidableEq, Repr

/-- The beeper pipeline, both sides (rules R42, R43).  `position` is `playback_position` counted in units of
1/`SAMPLE_RATE` T-states, as rule R431 allows. -/
structure Beeper where
  ring : List BeeperEvent
  writerCursor : Nat
  position : Nat
  outLevel : Bool
  xPrev : Int
  yPrev : Rat
  idleSamples : Nat
  deriving DecidableEq, Repr

/-- A tape block (rule R44). -/
structure Block where
  data : List Byte
  pauseMs : U32
  deriving DecidableEq, Repr

/-- Where a waveform came from (rule R44). -/
inductive Origin where
  | tap | tzx | wav
  deriving DecidableEq, Repr

/-- A tape waveform: pulse durations in T-states, alternating levels from `initialLevel` (rule R44). -/
structure Waveform where
  initialLevel : Bool
  pulses : List U32
  sampleRate : Option Nat
  origin : Origin
  blocks : List Block
  deriving DecidableEq, Repr

/-- Tape playback (rules R44, R45); `ear_enabled` and `phase` are derived (Machine/Ula.lean, Machine/TapePlay.lean). -/
structure Tape where
  source : Option Waveform
  playing : Bool
  cursor : Nat
  earLevel : Bool
  nextTransition : Nat
  remaining : Nat
  position : Nat
  done : Bool
  deriving DecidableEq, Repr

/-- The tape recorder (rule R47).  Samples are the int16 values as integers. -/
structure Recorder where
  enabled : Bool
  format : SessionFormat
  append : Bool
  blockActive : Bool
  pendingPulses : List Nat
  blockStartLevel : Bool
  lastLevel : Bool
  lastTransitionT : Nat
  audioBuf : List Int
  tapBlocks : List Block
  sessionDirty : Bool
  wavExisting : Option (List Byte)
  wavPrefixSamples : Nat
  /-- The model's own (log 9): warnings logged, one for each block dropped because it could not be decoded (rule R506). -/
  warnings : Nat
  deriving DecidableEq, Repr

/-! ## The outside world (spec/54_main_loop_host.md) -/

/-- The error kinds returned to the host (rule R550); `UnknownOpcode` is the hardware's own fault. -/
inductive HostError where
  | invalidRom
  /-- With the offending TZX block ID and its file offset where the spec asks for them (rule R462). -/
  | tapeParse (idAndOffset : Option (Byte × Nat))
  | tapeIo
  | tapeStateConflict
  | audioDeviceUnavailable
  deriving DecidableEq, Repr

/-- The part of the machine an error came from (rule R550). -/
inductive Subsystem where
  | rom | tape | recorder | audio
  deriving DecidableEq, Repr

/-- One message to the host's error stream: the kind of the error, the subsystem and the path (rule R550).  The ROM image and
the audio device are handed over by the host and have no path in the configuration (log 23). -/
structure ErrorMessage where
  kind : HostError
  subsystem : Subsystem
  path : Option String
  deriving DecidableEq, Repr

/-- The two files the machine reads and writes (rules R460, R500, R520), absent or with their bytes, and whether the file
system lets it read and write them. -/
structure Disk where
  tapeInput : Option (List Byte)
  recorderOutput : Option (List Byte)
  readable : Bool
  writable : Bool
  deriving DecidableEq, Repr

/-- What acts next when the host says so: an iteration of the main loop, one sample of the audio consumer, or a host input
applied between iterations (rules R6, R437, R546, R549). -/
inductive HostEvent where
  | iterate
  | audioSample
  | setKey (row : Fin 8) (column : Fin 5) (pressed : Bool)
  | tapeStart
  | tapePause
  | tapeResume
  | tapeRewind
  | tapeSeek (t : Nat)
  | recordStart
  | recordStartAppend
  | recordStop
  | shutdown
  deriving DecidableEq, Repr

/-! ## The whole state -/

/-- The state of the machine.  The last eight fields are the model's own (log 8, 9): the schedule of the outside world's
actions, what the machine has handed out, and the counter of the free values. -/
structure State where
  cpu : Cpu
  cursor : Cursor
  mem : Memory
  /-- `total_t_states` (rule R35), unbounded as U16 allows. -/
  clock : Nat
  /-- T-states toward the next frame boundary (rule R37). -/
  frameAcc : Nat
  /-- The keyboard matrix, active low (rule R39). -/
  keys : Vector Byte 8
  ula : Ula
  beeper : Beeper
  tape : Tape
  recorder : Recorder
  /-- The fault latch (rule R48). -/
  fault : Option FaultRecord
  config : MachineConfig
  disk : Disk
  /-- The outside world's actions that come before the next iteration, first first. -/
  schedule : List HostEvent
  /-- Whether the host's audio device is open (rules R444, R548). -/
  audioOpen : Bool
  /-- The samples the audio consumer has produced, oldest first. -/
  audioOut : List Int
  /-- How many times the renderer was asked to present (rule R545). -/
  framesPresented : Nat
  /-- The error the last host request was answered with, if any (rule R550). -/
  hostReply : Option ErrorMessage
  /-- The messages the machine has written to the error stream, oldest first (rule R550). -/
  errorStream : List ErrorMessage
  /-- The machine has been shut down (rule R549). -/
  shutDown : Bool
  /-- How many free values have been drawn (rules R337, R520). -/
  freeDraws : Nat
  deriving DecidableEq, Repr

/-! ## Why a step stops -/

/-- The reasons a step answers with a fault. -/
inductive Fault where
  /-- Raised by the step of a machine whose fault latch is set: it never runs again (rules R48, R560).  The instruction
  that set the latch ended in a next state.  Safe: it is what the spec says. -/
  | unknownOpcode (record : FaultRecord)
  /-- Raised by the step when all of memory is index prefix bytes: the spec gives that step no result (rule R103, U5).
  Safe: the model stops where the machine never ends the step. -/
  | endlessIndexBytes
  /-- Raised by the step of a machine that the host has shut down (rule R549): nothing runs any more.  Safe. -/
  | shutDown
  deriving DecidableEq, Repr

/-- The reasons a step answers with a refusal. -/
inductive Refusal where
  /-- Raised by `exec` alone, for an instruction that has no meaning yet.  Safe.  No arm answers it now. -/
  | notModelled (mnemonic : String)
  deriving DecidableEq, Repr

/-- What a step or a meaning answers. -/
abbrev Result := Host.Outcome State Fault Refusal

/-! ## Reset (rule R49) -/

/-- The CPU at reset.  PC, I, R, IFF1, IFF2, `ei_delay`, `halted`, `im` are rule R49's values.
DESIGN CHOICE (log 1): A, F, B .. L, the shadows, IX, IY and SP are unspecified there; the model starts them at 0. -/
def Cpu.reset : Cpu :=
  { a := 0#8, f := 0#8, b := 0#8, c := 0#8, d := 0#8, e := 0#8, h := 0#8, l := 0#8,
    aAlt := 0#8, fAlt := 0#8, bAlt := 0#8, cAlt := 0#8, dAlt := 0#8, eAlt := 0#8, hAlt := 0#8, lAlt := 0#8,
    ix := 0#16, iy := 0#16, sp := 0#16, pc := 0#16, i := 0#8, r := 0#8,
    iff1 := false, iff2 := false, eiDelay := false, im := .im0, halted := false }

/-- The step's variables before any step (log 10). -/
def Cursor.reset : Cursor := { tBase := 0, t := 0, start := 0#16, lastXy := none }

/-- The ULA at reset. -/
def Ula.reset : Ula := { border := 0#3, beeperLevel := false, micLevel := false, queue := [], lastT := 0 }

/-- The beeper pipeline at reset. -/
def Beeper.reset : Beeper :=
  { ring := [], writerCursor := 0, position := 0, outLevel := false, xPrev := 0, yPrev := 0, idleSamples := 0 }

/-- Tape playback at reset with a given source: rewound, `ear_level` the waveform's initial level (0 with no tape).
DESIGN CHOICE (log 2): `next_transition` has no reset value in the spec; the model starts it at 0. -/
def Tape.reset (source : Option Waveform) : Tape :=
  { source := source, playing := false, cursor := 0,
    earLevel := match source with
      | some w => w.initialLevel
      | none => false,
    nextTransition := 0, remaining := 0, position := 0, done := false }

/-- The recorder at reset: no session, lists empty.
DESIGN CHOICE (log 2): the spec gives no reset value for `rec_format`, `rec_append`, the two levels, the last transition
time and the WAV metadata, which a session start writes; the model starts them at TAP, 0 and absent. -/
def Recorder.reset : Recorder :=
  { enabled := false, format := .tap, append := false, blockActive := false, pendingPulses := [],
    blockStartLevel := false, lastLevel := false, lastTransitionT := 0, audioBuf := [], tapBlocks := [],
    sessionDirty := false, wavExisting := none, wavPrefixSamples := 0, warnings := 0 }

/-- No files; the file system works. -/
def Disk.reset : Disk := { tapeInput := none, recorderOutput := none, readable := true, writable := true }

/-- The machine right after reset (rule R49), with the default configuration and with nothing listed in memory: the ROM
image is the host's, and `State.boot` (Machine/HostRequests.lean) starts the machine with one. -/
def State.reset : State :=
  { cpu := Cpu.reset, cursor := Cursor.reset, mem := [], clock := 0, frameAcc := 0,
    keys := Vector.replicate 8 0xFF#8, ula := Ula.reset, beeper := Beeper.reset, tape := Tape.reset none,
    recorder := Recorder.reset, fault := none, config := MachineConfig.default, disk := Disk.reset,
    schedule := [], audioOpen := true, audioOut := [], framesPresented := 0, hostReply := none, errorStream := [],
    shutDown := false, freeDraws := 0 }

end Sys2Proof.Machine
end

