-- ==== Sys2Proof/Machine/BeeperPipe.lean ====
section
/-! DEFINITION. BeeperPipe: the beeper event ring and the DC-blocking resampler (spec/51_beeper.md rules R430 .. R440), in
the exact rational arithmetic of rule R439.  Times are compared in units of 1/`SAMPLE_RATE` T-states (rule R431): an event
at T-state `t` stands at `t * SAMPLE_RATE`, one output sample is `CPU_HZ` units long. -/

namespace Sys2Proof.Machine

/-- `raw(l)` (rule R432). -/
def rawLevel (l : Bool) : Int := if l then Config.amplitude else -Config.amplitude

/-- Whether an event at `t` lies more than the tolerance behind the playback position (rules R433, R435). -/
def Beeper.isRewind (rate : Nat) (b : Beeper) (t : Nat) : Bool :=
  decide (t * rate + Config.rewindTolSamples * Config.cpuHz < b.position)

/-- Append an event, dropping the oldest one when the ring is full (rules R433, R436). -/
def Beeper.append (b : Beeper) (e : BeeperEvent) : Beeper :=
  let ring := if b.ring.length = Config.beeperRingCap then b.ring.drop 1 else b.ring
  { b with ring := ring ++ [e] }

/-- `BeeperPush(t, level)` (rule R433). -/
def Beeper.push (rate : Nat) (b : Beeper) (t : Nat) (level : Bool) : Beeper :=
  let b1 : Beeper :=
    if b.isRewind rate t then
      { b with ring := [], position := t * rate, xPrev := rawLevel b.outLevel, yPrev := 0, idleSamples := 0,
               writerCursor := t }
    else { b with writerCursor := max b.writerCursor t }
  b1.append { tState := t, level := level }

/-- The latency in output samples, 0 when negative (rule R434): a readout for the host's throttle. -/
def Beeper.latency (rate : Nat) (b : Beeper) : Rat :=
  (((b.writerCursor * rate - b.position : Nat) : Rat)) / (Config.cpuHz : Rat)

/-- Pop every event up to `limit` from the head of the ring; the last one popped gives the level (rule R437 step 2). -/
def popUntil (rate limit : Nat) : List BeeperEvent → Bool → List BeeperEvent × Bool
  | [], lvl => ([], lvl)
  | e :: rest, lvl => if e.tState * rate ≤ limit then popUntil rate limit rest e.level else (e :: rest, lvl)

/-- `clamp16(y)` (rule R439): truncate toward zero, then limit. -/
def clamp16 (y : Rat) : Int := max (-32768) (min 32767 (y.num.tdiv y.den))

/-- `NextSample()` (rules R437, R438): the audio consumer's one action. -/
def Beeper.nextSample (rate : Nat) (b : Beeper) : Int × Beeper :=
  let next := b.position + Config.cpuHz
  let popped := popUntil rate next b.ring b.outLevel
  let idle := if b.ring.isEmpty then b.idleSamples + 1 else 0
  let b1 : Beeper := { b with ring := popped.1, outLevel := popped.2, position := next, idleSamples := idle }
  let raw := rawLevel popped.2
  if Config.idleSilenceSamples ≤ idle then
    (0, { b1 with xPrev := raw, yPrev := 0 })
  else
    let y : Rat := (raw : Rat) - (b.xPrev : Rat) + Config.alpha * b.yPrev
    (clamp16 y, { b1 with xPrev := raw, yPrev := y })

end Sys2Proof.Machine
end

