-- ==== Sys2Proof/Machine/Flags.lean ====
section
/-! DEFINITION. Flags: the flag register's layout and every flag computation of the spec, on bytes and words alone
(spec/10_state.md rule R26; spec/42_alu8.md rules R190 .. R193, R211 .. R216; spec/43_alu16.md; spec/44_rotate_shift_bit.md;
spec/46_block.md). -/

namespace Sys2Proof.Machine

/-! ## Layout of F (rule R26) -/

def maskS : Byte := 0x80#8
def maskZ : Byte := 0x40#8
def maskY : Byte := 0x20#8
def maskH : Byte := 0x10#8
def maskX : Byte := 0x08#8
def maskP : Byte := 0x04#8
def maskN : Byte := 0x02#8
def maskC : Byte := 0x01#8

/-- Y and X together. -/
def maskXY : Byte := 0x28#8

/-- S, Z and P/V together: what the 16-bit ADD, the accumulator rotates, SCF and CCF keep. -/
def maskSZP : Byte := 0xC4#8

def flagS (f : Byte) : Bool := bit f 7
def flagZ (f : Byte) : Bool := bit f 6
def flagY (f : Byte) : Bool := bit f 5
def flagH (f : Byte) : Bool := bit f 4
def flagX (f : Byte) : Bool := bit f 3
def flagP (f : Byte) : Bool := bit f 2
def flagN (f : Byte) : Bool := bit f 1
def flagC (f : Byte) : Bool := bit f 0

/-! ## 8-bit helpers -/

/-- `sz53(v)` (rule R190): S, Y, X from bits 7, 5, 3 of `v`, Z when `v` is zero. -/
def sz53 (v : Byte) : Byte := (v &&& 0xA8#8) ||| maskIf (v == 0#8) maskZ

/-- `sz53p(v)` (rule R190): `sz53` with P/V the parity. -/
def sz53p (v : Byte) : Byte := sz53 v ||| maskIf (parityEven v) maskP

/-- `add8` (rule R191): the sum and its flags, with the exact sum taken over the integers. -/
def add8 (a b : Byte) (c : Bool) : Byte × Byte :=
  let s := a.toNat + b.toNat + bitNat c
  let r := BitVec.ofNat 8 s
  let h := decide (a.toNat % 16 + b.toNat % 16 + bitNat c > 0x0F)
  let v := ((a ^^^ r) &&& (b ^^^ r) &&& 0x80#8) != 0#8
  (r, sz53 r ||| maskIf h maskH ||| maskIf v maskP ||| maskIf (decide (s > 0xFF)) maskC)

/-- `sub8` (rule R192): the difference and its flags; H and C are borrows. -/
def sub8 (a b : Byte) (c : Bool) : Byte × Byte :=
  let s : Int := (a.toNat : Int) - b.toNat - bitNat c
  let r := BitVec.ofInt 8 s
  let h := decide (((a.toNat % 16 : Nat) : Int) - (b.toNat % 16 : Nat) - bitNat c < 0)
  let v := ((a ^^^ b) &&& (a ^^^ r) &&& 0x80#8) != 0#8
  (r, sz53 r ||| maskIf h maskH ||| maskIf v maskP ||| maskN ||| maskIf (decide (s < 0)) maskC)

/-- `and8` (rule R193). -/
def and8 (a b : Byte) : Byte × Byte := (a &&& b, sz53p (a &&& b) ||| maskH)

/-- `xor8` (rule R193). -/
def xor8 (a b : Byte) : Byte × Byte := (a ^^^ b, sz53p (a ^^^ b))

/-- `or8` (rule R193). -/
def or8 (a b : Byte) : Byte × Byte := (a ||| b, sz53p (a ||| b))

/-- `cp8` (rule R193): the flags of `sub8` with X and Y from the operand. -/
def cp8 (a b : Byte) : Byte := ((sub8 a b false).2 &&& ~~~maskXY) ||| (b &&& maskXY)

/-- The eight operations of the field `alu` (rule R95). -/
inductive AluOp where
  | add | adc | sub | sbc | and | xor | or | cp
  deriving DecidableEq, Repr

/-- `alu[y]` on A and an operand (rules R195 .. R202): the new A and F; CP keeps A. -/
def alu8 (op : AluOp) (a v f : Byte) : Byte × Byte :=
  match op with
  | .add => add8 a v false
  | .adc => add8 a v (flagC f)
  | .sub => sub8 a v false
  | .sbc => sub8 a v (flagC f)
  | .and => and8 a v
  | .xor => xor8 a v
  | .or => or8 a v
  | .cp => (a, cp8 a v)

/-- `inc8` (rule R216), `f` the flags before. -/
def inc8 (v f : Byte) : Byte × Byte :=
  let r := v + 1#8
  (r, (f &&& maskC) ||| sz53 r ||| maskIf (r &&& 0x0F#8 == 0#8) maskH ||| maskIf (r == 0x80#8) maskP)

/-- `dec8` (rule R216), `f` the flags before. -/
def dec8 (v f : Byte) : Byte × Byte :=
  let r := v - 1#8
  (r, (f &&& maskC) ||| maskN ||| sz53 r ||| maskIf (r &&& 0x0F#8 == 0x0F#8) maskH ||| maskIf (r == 0x7F#8) maskP)

/-- `DAA` (rule R211): the adjusted A and F. -/
def daa8 (a f : Byte) : Byte × Byte :=
  let six := flagH f || decide ((a &&& 0x0F#8).toNat > 9)
  let c := flagC f || decide (a.toNat > 0x99)
  let corr := maskIf six 0x06#8 ||| maskIf c 0x60#8
  let r := if flagN f then a - corr else a + corr
  let h := bit (a ^^^ r) 4
  (r, sz53p r ||| maskIf h maskH ||| (f &&& maskN) ||| maskIf c maskC)

/-- `CPL`'s flags (rule R212), `a` the new A. -/
def cplFlags (a f : Byte) : Byte := (f &&& (maskSZP ||| maskC)) ||| maskH ||| maskN ||| (a &&& maskXY)

/-- `CCF`'s flags (rule R214). -/
def ccfFlags (a f : Byte) : Byte :=
  (f &&& maskSZP) ||| maskIf (flagC f) maskH ||| maskIf (!flagC f) maskC ||| (a &&& maskXY)

/-- `SCF`'s flags (rule R215). -/
def scfFlags (a f : Byte) : Byte := (f &&& maskSZP) ||| maskC ||| (a &&& maskXY)

/-- The flags of `LD A,I` and `LD A,R` (rules R141, R142). -/
def ldAirFlags (a f : Byte) (iff2 : Bool) : Byte := (f &&& maskC) ||| sz53 a ||| maskIf iff2 maskP

/-- The flags of `IN r,(C)`, `IN F,(C)`, `RLD` and `RRD`: C kept, the rest from `v` (rules R264, R265, R351, R352). -/
def inFlags (v f : Byte) : Byte := (f &&& maskC) ||| sz53p v

/-! ## 16-bit arithmetic -/

/-- `ADD HL,ss` (rule R230): S, Z, P/V kept, X and Y from the high byte of the sum. -/
def add16 (a b : Word) (f : Byte) : Word × Byte :=
  let s := a.toNat + b.toNat
  let r := BitVec.ofNat 16 s
  let h := decide (a.toNat % 0x1000 + b.toNat % 0x1000 > 0x0FFF)
  (r, (f &&& maskSZP) ||| maskIf h maskH ||| maskIf (decide (s > 0xFFFF)) maskC ||| (hiByte r &&& maskXY))

/-- The S, Z, Y, X flags of a 16-bit result (rules R231, R232). -/
def sz53w (r : Word) : Byte := (hiByte r &&& (maskS ||| maskXY)) ||| maskIf (r == 0#16) maskZ

/-- `ADC HL,ss` (rule R231). -/
def adc16 (a b : Word) (c : Bool) : Word × Byte :=
  let s := a.toNat + b.toNat + bitNat c
  let r := BitVec.ofNat 16 s
  let h := decide (a.toNat % 0x1000 + b.toNat % 0x1000 + bitNat c > 0x0FFF)
  let v := ((a ^^^ r) &&& (b ^^^ r) &&& 0x8000#16) != 0#16
  (r, sz53w r ||| maskIf h maskH ||| maskIf v maskP ||| maskIf (decide (s > 0xFFFF)) maskC)

/-- `SBC HL,ss` (rule R232). -/
def sbc16 (a b : Word) (c : Bool) : Word × Byte :=
  let s : Int := (a.toNat : Int) - b.toNat - bitNat c
  let r := BitVec.ofInt 16 s
  let h := decide (((a.toNat % 0x1000 : Nat) : Int) - (b.toNat % 0x1000 : Nat) - bitNat c < 0)
  let v := ((a ^^^ b) &&& (a ^^^ r) &&& 0x8000#16) != 0#16
  (r, sz53w r ||| maskN ||| maskIf h maskH ||| maskIf v maskP ||| maskIf (decide (s < 0)) maskC)

/-! ## Rotates, shifts and bits -/

/-- The eight operations of the field `rot` (rule R96). -/
inductive RotOp where
  | rlc | rrc | rl | rr | sla | sra | sll | srl
  deriving DecidableEq, Repr

/-- The result of `rot8` (rule R254), `c` the carry before. -/
def rotResult (op : RotOp) (v : Byte) (c : Bool) : Byte :=
  match op with
  | .rlc => (v <<< 1) ||| maskIf (bit v 7) 0x01#8
  | .rrc => (v >>> 1) ||| maskIf (bit v 0) 0x80#8
  | .rl => (v <<< 1) ||| maskIf c 0x01#8
  | .rr => (v >>> 1) ||| maskIf c 0x80#8
  | .sla => v <<< 1
  | .sra => (v >>> 1) ||| (v &&& 0x80#8)
  | .sll => (v <<< 1) ||| 0x01#8
  | .srl => v >>> 1

/-- The bit `rot8` moves to C (rule R254). -/
def rotOut (op : RotOp) (v : Byte) : Bool :=
  match op with
  | .rlc | .rl | .sla | .sll => bit v 7
  | .rrc | .rr | .sra | .srl => bit v 0

/-- `rot8` (rule R254): the result and F. -/
def rot8 (op : RotOp) (v f : Byte) : Byte × Byte :=
  let r := rotResult op v (flagC f)
  (r, sz53p r ||| maskIf (rotOut op v) maskC)

/-- The accumulator rotates RLCA, RRCA, RLA, RRA (rules R250 .. R253): the results of the CB rotates, but S, Z, P/V kept
and X, Y from the new A. -/
def rotA (op : RotOp) (a f : Byte) : Byte × Byte :=
  let r := rotResult op a (flagC f)
  (r, (f &&& maskSZP) ||| (r &&& maskXY) ||| maskIf (rotOut op a) maskC)

/-- The byte with only bit `y` set. -/
def bitMask (y : Fin 8) : Byte := 1#8 <<< y.val

/-- The flags of `BIT y` on `v` with X and Y taken from `xySrc` (rules R270 .. R272). -/
def bitFlags (y : Fin 8) (v xySrc f : Byte) : Byte :=
  let tb := v &&& bitMask y
  (f &&& maskC) ||| maskH ||| maskIf (tb == 0#8) (maskZ ||| maskP) ||| (tb &&& maskS) ||| (xySrc &&& maskXY)

/-- `v` with bit `y` set (rule R273). -/
def setBit (y : Fin 8) (v : Byte) : Byte := v ||| bitMask y

/-- `v` with bit `y` cleared (rule R274). -/
def resBit (y : Fin 8) (v : Byte) : Byte := v &&& ~~~(bitMask y)

/-- `RLD` (rule R264): the new A and the new memory byte. -/
def rld8 (a m : Byte) : Byte × Byte := ((a &&& 0xF0#8) ||| (m >>> 4), (m <<< 4) ||| (a &&& 0x0F#8))

/-- `RRD` (rule R265): the new A and the new memory byte. -/
def rrd8 (a m : Byte) : Byte × Byte := ((a &&& 0xF0#8) ||| (m &&& 0x0F#8), (a <<< 4) ||| (m >>> 4))

/-! ## Block instructions -/

/-- X from bit 3 and Y from bit 1 of `n` (spec/46_block.md sections 2 and 3). -/
def blockXY (n : Byte) : Byte := (n &&& maskX) ||| maskIf (bit n 1) maskY

/-- `ldflags(v)` (rules R321 .. R324), `bc` the value after the decrement. -/
def ldFlags (a v : Byte) (bc : Word) (f : Byte) : Byte :=
  (f &&& (maskS ||| maskZ ||| maskC)) ||| maskIf (bc != 0#16) maskP ||| blockXY (a + v)

/-- `cpflags(v)` (rules R325 .. R328), `bc` the value after the decrement. -/
def cpFlags (a v : Byte) (bc : Word) (f : Byte) : Byte :=
  let r := a - v
  let h := decide ((a &&& 0x0F#8).toNat < (v &&& 0x0F#8).toNat)
  let n := r - maskIf h 1#8
  (f &&& maskC) ||| maskN ||| (r &&& maskS) ||| maskIf (r == 0#8) maskZ ||| maskIf h maskH |||
    maskIf (bc != 0#16) maskP ||| blockXY n

/-- The bits of F a block I/O instruction leaves unspecified (rule R337): S, Y, H, X, P/V. -/
def maskFree : Byte := 0xBC#8

/-- `ioflags()` (rule R337), `b` after the decrement, `u` the free value. -/
def ioFlags (b f u : Byte) : Byte :=
  (f &&& maskC) ||| maskN ||| maskIf (b == 0#8) maskZ ||| (u &&& maskFree)

end Sys2Proof.Machine
end

