-- ==== Sys2Proof/Machine/Ops.lean ====
section
/-! DEFINITION. Ops: the named operations over memory and registers (spec/20_memory.md), fetching, the stack, and the two
ways control leaves the program: the fatal fault and the interrupt, with the return from one beside it
(spec/60_exceptions.md). -/

namespace Sys2Proof.Machine

/-! ## Memory cells -/

/-- The byte at an address. -/
def Memory.get : Memory → Nat → Byte
  | [], _ => Memory.unlisted
  | (k, v) :: rest, a => if k = a then v else Memory.get rest a

/-- Store a byte, keeping the canonical form: the value an unlisted address reads as removes the entry. -/
def Memory.put : Memory → Nat → Byte → Memory
  | [], a, v => if v = Memory.unlisted then [] else [(a, v)]
  | (k, w) :: rest, a, v =>
    if a < k then
      if v = Memory.unlisted then (k, w) :: rest else (a, v) :: (k, w) :: rest
    else if a = k then
      if v = Memory.unlisted then rest else (a, v) :: rest
    else (k, w) :: Memory.put rest a v

/-- Store a list of bytes at consecutive addresses from `a` on, wrapping at 65,536 (rule R63); ROM is not filtered: this
is how an image gets into memory, not a store of the program. -/
def Memory.putBytes : Memory → Word → List Byte → Memory
  | m, _, [] => m
  | m, a, v :: rest => Memory.putBytes (m.put a.toNat v) (a + 1#16) rest

/-! ## Named updates of the state -/

def State.setCpu (s : State) (c : Cpu) : State := { s with cpu := c }
def State.setMem (s : State) (m : Memory) : State := { s with mem := m }
def State.setCursor (s : State) (c : Cursor) : State := { s with cursor := c }

def State.setA (s : State) (v : Byte) : State := { s with cpu := { s.cpu with a := v } }
def State.setF (s : State) (v : Byte) : State := { s with cpu := { s.cpu with f := v } }
def State.setB (s : State) (v : Byte) : State := { s with cpu := { s.cpu with b := v } }
def State.setSp (s : State) (v : Word) : State := { s with cpu := { s.cpu with sp := v } }
def State.setPc (s : State) (v : Word) : State := { s with cpu := { s.cpu with pc := v } }

/-- A and F together: what an accumulator operation writes. -/
def State.setAF (s : State) (af : Byte × Byte) : State := { s with cpu := { s.cpu with a := af.1, f := af.2 } }

/-! ## Register pairs (rule R21) -/

def Cpu.bc (c : Cpu) : Word := mkWord c.b c.c
def Cpu.de (c : Cpu) : Word := mkWord c.d c.e
def Cpu.hl (c : Cpu) : Word := mkWord c.h c.l
def Cpu.af (c : Cpu) : Word := mkWord c.a c.f

def State.setBc (s : State) (v : Word) : State := { s with cpu := { s.cpu with b := hiByte v, c := loByte v } }
def State.setDe (s : State) (v : Word) : State := { s with cpu := { s.cpu with d := hiByte v, e := loByte v } }
def State.setHl (s : State) (v : Word) : State := { s with cpu := { s.cpu with h := hiByte v, l := loByte v } }
def State.setAfPair (s : State) (v : Word) : State := { s with cpu := { s.cpu with a := hiByte v, f := loByte v } }

/-! ## Fetching and time (rules R25, R29, R36, R64, R120, R121) -/

/-- `IncR()` (rule R29): bits 6..0 count, bit 7 stays. -/
def incR (r : Byte) : Byte := (r &&& 0x80#8) ||| ((r + 1#8) &&& 0x7F#8)

/-- `IncR()` a number of times. -/
def incRTimes : Nat → Byte → Byte
  | 0, r => r
  | n + 1, r => incRTimes n (incR r)

/-- PC past `bytes` bytes, R after `incs` increments, `t` more T-states: what fetching an instruction does. -/
def State.fetched (s : State) (bytes incs t : Nat) : State :=
  { s with
    cpu := { s.cpu with pc := s.cpu.pc + BitVec.ofNat 16 bytes, r := incRTimes incs s.cpu.r }
    cursor := { s.cursor with t := s.cursor.t + t } }

/-- The fetch of one index prefix byte: 4 T-states, one `IncR()`, and it becomes the last index prefix met (rules R102,
R103). -/
def State.fetchedXy (s : State) (xy : Xy) : State :=
  { s with
    cpu := { s.cpu with pc := s.cpu.pc + 1#16, r := incR s.cpu.r }
    cursor := { s.cursor with t := s.cursor.t + 4, lastXy := some xy } }

/-- The same for an instruction with an index prefix, which becomes the last one met; the counts are the whole
instruction's, the prefix byte in them. -/
def State.fetchedIdx (s : State) (xy : Xy) (bytes incs t : Nat) : State :=
  let s1 := s.fetched bytes incs t
  { s1 with cursor := { s1.cursor with lastXy := some xy } }

/-- `t` more T-states. -/
def State.tick (s : State) (t : Nat) : State := { s with cursor := { s.cursor with t := s.cursor.t + t } }

/-! ## Memory accesses (rules R61 .. R63) -/

/-- `MemRead(addr, 1)` (rule R61). -/
def State.read8 (s : State) (addr : Word) : Byte := s.mem.get addr.toNat

/-- `MemWrite(addr, 1, v)` (rule R62): a write below 0x4000 is discarded. -/
def State.write8 (s : State) (addr : Word) (v : Byte) : State :=
  if addr.toNat < Config.romSize then s else { s with mem := s.mem.put addr.toNat v }

/-- `MemRead(addr, 2)` (rule R63): the byte at the lower address is the low byte. -/
def State.read16 (s : State) (addr : Word) : Word := mkWord (s.read8 (addr + 1#16)) (s.read8 addr)

/-- `MemWrite(addr, 2, v)` (rule R63): low byte first, each byte filtered by itself. -/
def State.write16 (s : State) (addr : Word) (v : Word) : State :=
  (s.write8 addr (loByte v)).write8 (addr + 1#16) (hiByte v)

/-! ## The stack (rule R76) -/

/-- `Push16(v)`. -/
def State.push16 (s : State) (v : Word) : State :=
  let s1 := s.setSp (s.cpu.sp - 1#16)
  let s2 := s1.write8 s1.cpu.sp (hiByte v)
  let s3 := s2.setSp (s2.cpu.sp - 1#16)
  s3.write8 s3.cpu.sp (loByte v)

/-- `Pop16()`: the word and the state with SP moved past it. -/
def State.pop16 (s : State) : Word × State :=
  let lo := s.read8 s.cpu.sp
  let s1 := s.setSp (s.cpu.sp + 1#16)
  let hi := s1.read8 s1.cpu.sp
  (mkWord hi lo, s1.setSp (s1.cpu.sp + 1#16))

/-! ## The fatal fault, the interrupt, and the return from one -/

/-- `raise UnknownOpcode` (rules R48, R560): the latch is set once and nothing else changes; the record names the address
of the first byte of the instruction, the last index prefix of its run, and the two bytes ED, op2. -/
def State.raiseUnknownOpcode (s : State) (op : Byte) : State :=
  { s with
    fault := match s.fault with
      | some r => some r
      | none => some { addr := s.cursor.start, xyByte := s.cursor.lastXy, bytes := [0xED#8, op] } }

/-- Where an interrupt goes: 0x0038 in modes 0 and 1, through the vector word at `I ++ data` in mode 2, with its
T-states (rules R566 .. R568). -/
def State.interruptTarget (s : State) (data : Byte) : Word × Nat :=
  match s.cpu.im with
  | .im2 => (s.read16 (mkWord s.cpu.i data), 19)
  | _ => (0x0038#16, 13)

/-- `Interrupt(data)` (rule R566): taking the maskable interrupt.  If halted, PC moves past the HALT byte and the CPU
wakes; both flip-flops are cleared; PC is pushed; R counts once; control goes to the handler.  Answers the state and the
T-states. -/
def State.interrupt (s : State) (data : Byte) : State × Nat :=
  let pc := if s.cpu.halted then s.cpu.pc + 1#16 else s.cpu.pc
  let s1 : State :=
    { s with cpu := { s.cpu with pc := pc, halted := false, iff1 := false, iff2 := false } }
  let s2 := s1.push16 pc
  let s3 : State := { s2 with cpu := { s2.cpu with r := incR s2.cpu.r } }
  let target := s3.interruptTarget data
  (s3.setPc target.1, target.2)

/-- The return RETI and RETN make (rules R305, R306): PC from the stack, IFF1 from IFF2. -/
def State.returnFromInterrupt (s : State) : State :=
  let p := s.pop16
  { p.2 with cpu := { p.2.cpu with pc := p.1, iff1 := p.2.cpu.iff2 } }

end Sys2Proof.Machine
end

