-- ==== Sys2Proof/Machine/Operands.lean ====
section
/-! DEFINITION. Operands: every operand form of spec/30_encoding.md rules R92 .. R94, R100, R104: the 8-bit registers, the
register pairs, the index registers and their halves, the (XY+d) address, and the conditions. -/

namespace Sys2Proof.Machine

/-! ## 8-bit registers (rule R92) -/

/-- Read `r8[k]`, k ≠ 6. -/
def Cpu.reg8 (c : Cpu) : Reg8 → Byte
  | .b => c.b
  | .c => c.c
  | .d => c.d
  | .e => c.e
  | .h => c.h
  | .l => c.l
  | .a => c.a

/-- Write `r8[k]`, k ≠ 6. -/
def Cpu.setReg8 (c : Cpu) (r : Reg8) (v : Byte) : Cpu :=
  match r with
  | .b => { c with b := v }
  | .c => { c with c := v }
  | .d => { c with d := v }
  | .e => { c with e := v }
  | .h => { c with h := v }
  | .l => { c with l := v }
  | .a => { c with a := v }

/-- Write `r8[k]`, k ≠ 6. -/
def State.setReg8 (s : State) (r : Reg8) (v : Byte) : State := { s with cpu := s.cpu.setReg8 r v }

/-! ## 16-bit pairs (rule R93) -/

/-- Read `rp[p]`. -/
def Cpu.rp (c : Cpu) : Rp → Word
  | .bc => c.bc
  | .de => c.de
  | .hl => c.hl
  | .sp => c.sp

/-- Write `rp[p]`. -/
def State.setRp (s : State) (p : Rp) (v : Word) : State :=
  match p with
  | .bc => s.setBc v
  | .de => s.setDe v
  | .hl => s.setHl v
  | .sp => s.setSp v

/-- Read `rp2[p]`. -/
def Cpu.rp2 (c : Cpu) : Rp2 → Word
  | .bc => c.bc
  | .de => c.de
  | .hl => c.hl
  | .af => c.af

/-- Write `rp2[p]`. -/
def State.setRp2 (s : State) (p : Rp2) (v : Word) : State :=
  match p with
  | .bc => s.setBc v
  | .de => s.setDe v
  | .hl => s.setHl v
  | .af => s.setAfPair v

/-! ## Index registers (rules R23, R104) -/

/-- The index register a prefix selects. -/
def Cpu.xy (c : Cpu) : Xy → Word
  | .ix => c.ix
  | .iy => c.iy

/-- Write it. -/
def State.setXy (s : State) (xy : Xy) (v : Word) : State :=
  match xy with
  | .ix => { s with cpu := { s.cpu with ix := v } }
  | .iy => { s with cpu := { s.cpu with iy := v } }

/-- Read XYh or XYl. -/
def Cpu.half (c : Cpu) (xy : Xy) : Half → Byte
  | .hi => hiByte (c.xy xy)
  | .lo => loByte (c.xy xy)

/-- Write XYh or XYl; the other half stays. -/
def State.setHalf (s : State) (xy : Xy) (k : Half) (v : Byte) : State :=
  match k with
  | .hi => s.setXy xy (mkWord v (loByte (s.cpu.xy xy)))
  | .lo => s.setXy xy (mkWord (hiByte (s.cpu.xy xy)) v)

/-- Read an 8-bit register with H and L rewritten to the halves of the index register (rule R148). -/
def Cpu.reg8Xy (c : Cpu) (xy : Xy) (r : Reg8) : Byte :=
  match r with
  | .h => c.half xy .hi
  | .l => c.half xy .lo
  | r => c.reg8 r

/-- Write an 8-bit register with H and L rewritten to the halves of the index register (rule R148). -/
def State.setReg8Xy (s : State) (xy : Xy) (r : Reg8) (v : Byte) : State :=
  match r with
  | .h => s.setHalf xy .hi v
  | .l => s.setHalf xy .lo v
  | r => s.setReg8 r v

/-- `rp[p]` with HL rewritten to the index register (rule R104 item 2, rule R233). -/
def Cpu.rpXy (c : Cpu) (xy : Xy) (p : Rp) : Word :=
  match p with
  | .hl => c.xy xy
  | p => c.rp p

/-- The effective address `(XY + sext_16(d)) & 0xFFFF` (rule R100). -/
def Cpu.ea (c : Cpu) (xy : Xy) (d : Byte) : Word := c.xy xy + sext16 d

/-! ## Conditions (rules R94, R290) -/

/-- `cond(y)` of the flags `f`. -/
def condHolds (cc : Cond) (f : Byte) : Bool :=
  match cc with
  | .nz => !flagZ f
  | .z => flagZ f
  | .nc => !flagC f
  | .c => flagC f
  | .po => !flagP f
  | .pe => flagP f
  | .p => !flagS f
  | .m => flagS f

end Sys2Proof.Machine
end

