-- ==== Sys2Proof/Machine/Alu16.lean ====
section
/-! DEFINITION. Alu16: the meanings of the 16-bit arithmetic (spec/43_alu16.md rules R230 .. R237). -/

namespace Sys2Proof.Machine

/-- HL and F together: what a 16-bit accumulator operation writes. -/
def State.setHlF (s : State) (w : Word × Byte) : State := (s.setHl w.1).setF w.2

/-- An index register and F together. -/
def State.setXyF (s : State) (xy : Xy) (w : Word × Byte) : State := (s.setXy xy w.1).setF w.2

/-- `ADD HL,ss` (R230). -/
def execAddHlRp (p : Rp) (s : State) : Result :=
  let s1 := s.fetched 1 1 11
  .next (s1.setHlF (add16 s1.cpu.hl (s1.cpu.rp p) s1.cpu.f))

/-- `ADC HL,ss` (R231). -/
def execAdcHlRp (p : Rp) (s : State) : Result :=
  let s1 := s.fetched 2 2 15
  .next (s1.setHlF (adc16 s1.cpu.hl (s1.cpu.rp p) (flagC s1.cpu.f)))

/-- `SBC HL,ss` (R232). -/
def execSbcHlRp (p : Rp) (s : State) : Result :=
  let s1 := s.fetched 2 2 15
  .next (s1.setHlF (sbc16 s1.cpu.hl (s1.cpu.rp p) (flagC s1.cpu.f)))

/-- `ADD XY,rp` (R233): the p = 2 source is XY itself. -/
def execAddXyRp (xy : Xy) (p : Rp) (s : State) : Result :=
  let s1 := s.fetchedIdx xy 2 2 15
  .next (s1.setXyF xy (add16 (s1.cpu.xy xy) (s1.cpu.rpXy xy p) s1.cpu.f))

/-- `INC ss` (R234). -/
def execIncRp (p : Rp) (s : State) : Result :=
  let s1 := s.fetched 1 1 6
  .next (s1.setRp p (s1.cpu.rp p + 1#16))

/-- `DEC ss` (R235). -/
def execDecRp (p : Rp) (s : State) : Result :=
  let s1 := s.fetched 1 1 6
  .next (s1.setRp p (s1.cpu.rp p - 1#16))

/-- `INC XY` (R236). -/
def execIncXy (xy : Xy) (s : State) : Result :=
  let s1 := s.fetchedIdx xy 2 2 10
  .next (s1.setXy xy (s1.cpu.xy xy + 1#16))

/-- `DEC XY` (R237). -/
def execDecXy (xy : Xy) (s : State) : Result :=
  let s1 := s.fetchedIdx xy 2 2 10
  .next (s1.setXy xy (s1.cpu.xy xy - 1#16))

end Sys2Proof.Machine
end

