-- ==== Sys2Proof/Machine/Alu8.lean ====
section
/-! DEFINITION. Alu8: the meanings of the 8-bit arithmetic and logic (spec/42_alu8.md rules R194 .. R216). -/

namespace Sys2Proof.Machine

/-! ## The eight accumulator operations (rules R194 .. R202) -/

/-- `alu[y]` with operand value `v`: A and F. -/
def State.alu (s : State) (op : AluOp) (v : Byte) : State := s.setAF (alu8 op s.cpu.a v s.cpu.f)

/-- The form with a register (R194): T = 4. -/
def State.aluReg (s : State) (op : AluOp) (r : Reg8) : State :=
  let s1 := s.fetched 1 1 4
  s1.alu op (s1.cpu.reg8 r)

/-- The form with the byte at HL (R194): T = 7. -/
def State.aluMemHl (s : State) (op : AluOp) : State :=
  let s1 := s.fetched 1 1 7
  s1.alu op (s1.read8 s1.cpu.hl)

/-- The immediate form (R194): T = 7. -/
def State.aluImm (s : State) (op : AluOp) (n : Byte) : State := (s.fetched 2 1 7).alu op n

/-- The (XY+d) form (R194): T = 19. -/
def State.aluXyd (s : State) (op : AluOp) (xy : Xy) (d : Byte) : State :=
  let s1 := s.fetchedIdx xy 3 2 19
  s1.alu op (s1.read8 (s1.cpu.ea xy d))

/-- The form with half an index register (R194): T = 8. -/
def State.aluXyHalf (s : State) (op : AluOp) (xy : Xy) (k : Half) : State :=
  let s1 := s.fetchedIdx xy 2 2 8
  s1.alu op (s1.cpu.half xy k)

/-- `ADD A,r` (R195). -/
def execAddR (r : Reg8) (s : State) : Result := .next (s.aluReg .add r)
/-- `ADD A,(HL)` (R195). -/
def execAddMemHl (s : State) : Result := .next (s.aluMemHl .add)
/-- `ADD A,n` (R195). -/
def execAddN (n : Byte) (s : State) : Result := .next (s.aluImm .add n)
/-- `ADD A,(XY+d)` (R195). -/
def execAddXyd (xy : Xy) (d : Byte) (s : State) : Result := .next (s.aluXyd .add xy d)
/-- `ADD A,XYh` and `ADD A,XYl` (R195). -/
def execAddXyHalf (xy : Xy) (k : Half) (s : State) : Result := .next (s.aluXyHalf .add xy k)

/-- `ADC A,r` (R196). -/
def execAdcR (r : Reg8) (s : State) : Result := .next (s.aluReg .adc r)
/-- `ADC A,(HL)` (R196). -/
def execAdcMemHl (s : State) : Result := .next (s.aluMemHl .adc)
/-- `ADC A,n` (R196). -/
def execAdcN (n : Byte) (s : State) : Result := .next (s.aluImm .adc n)
/-- `ADC A,(XY+d)` (R196). -/
def execAdcXyd (xy : Xy) (d : Byte) (s : State) : Result := .next (s.aluXyd .adc xy d)
/-- `ADC A,XYh` and `ADC A,XYl` (R196). -/
def execAdcXyHalf (xy : Xy) (k : Half) (s : State) : Result := .next (s.aluXyHalf .adc xy k)

/-- `SUB r` (R197). -/
def execSubR (r : Reg8) (s : State) : Result := .next (s.aluReg .sub r)
/-- `SUB (HL)` (R197). -/
def execSubMemHl (s : State) : Result := .next (s.aluMemHl .sub)
/-- `SUB n` (R197). -/
def execSubN (n : Byte) (s : State) : Result := .next (s.aluImm .sub n)
/-- `SUB (XY+d)` (R197). -/
def execSubXyd (xy : Xy) (d : Byte) (s : State) : Result := .next (s.aluXyd .sub xy d)
/-- `SUB XYh` and `SUB XYl` (R197). -/
def execSubXyHalf (xy : Xy) (k : Half) (s : State) : Result := .next (s.aluXyHalf .sub xy k)

/-- `SBC A,r` (R198). -/
def execSbcR (r : Reg8) (s : State) : Result := .next (s.aluReg .sbc r)
/-- `SBC A,(HL)` (R198). -/
def execSbcMemHl (s : State) : Result := .next (s.aluMemHl .sbc)
/-- `SBC A,n` (R198). -/
def execSbcN (n : Byte) (s : State) : Result := .next (s.aluImm .sbc n)
/-- `SBC A,(XY+d)` (R198). -/
def execSbcXyd (xy : Xy) (d : Byte) (s : State) : Result := .next (s.aluXyd .sbc xy d)
/-- `SBC A,XYh` and `SBC A,XYl` (R198). -/
def execSbcXyHalf (xy : Xy) (k : Half) (s : State) : Result := .next (s.aluXyHalf .sbc xy k)

/-- `AND r` (R199). -/
def execAndR (r : Reg8) (s : State) : Result := .next (s.aluReg .and r)
/-- `AND (HL)` (R199). -/
def execAndMemHl (s : State) : Result := .next (s.aluMemHl .and)
/-- `AND n` (R199). -/
def execAndN (n : Byte) (s : State) : Result := .next (s.aluImm .and n)
/-- `AND (XY+d)` (R199). -/
def execAndXyd (xy : Xy) (d : Byte) (s : State) : Result := .next (s.aluXyd .and xy d)
/-- `AND XYh` and `AND XYl` (R199). -/
def execAndXyHalf (xy : Xy) (k : Half) (s : State) : Result := .next (s.aluXyHalf .and xy k)

/-- `XOR r` (R200). -/
def execXorR (r : Reg8) (s : State) : Result := .next (s.aluReg .xor r)
/-- `XOR (HL)` (R200). -/
def execXorMemHl (s : State) : Result := .next (s.aluMemHl .xor)
/-- `XOR n` (R200). -/
def execXorN (n : Byte) (s : State) : Result := .next (s.aluImm .xor n)
/-- `XOR (XY+d)` (R200). -/
def execXorXyd (xy : Xy) (d : Byte) (s : State) : Result := .next (s.aluXyd .xor xy d)
/-- `XOR XYh` and `XOR XYl` (R200). -/
def execXorXyHalf (xy : Xy) (k : Half) (s : State) : Result := .next (s.aluXyHalf .xor xy k)

/-- `OR r` (R201). -/
def execOrR (r : Reg8) (s : State) : Result := .next (s.aluReg .or r)
/-- `OR (HL)` (R201). -/
def execOrMemHl (s : State) : Result := .next (s.aluMemHl .or)
/-- `OR n` (R201). -/
def execOrN (n : Byte) (s : State) : Result := .next (s.aluImm .or n)
/-- `OR (XY+d)` (R201). -/
def execOrXyd (xy : Xy) (d : Byte) (s : State) : Result := .next (s.aluXyd .or xy d)
/-- `OR XYh` and `OR XYl` (R201). -/
def execOrXyHalf (xy : Xy) (k : Half) (s : State) : Result := .next (s.aluXyHalf .or xy k)

/-- `CP r` (R202). -/
def execCpR (r : Reg8) (s : State) : Result := .next (s.aluReg .cp r)
/-- `CP (HL)` (R202). -/
def execCpMemHl (s : State) : Result := .next (s.aluMemHl .cp)
/-- `CP n` (R202). -/
def execCpN (n : Byte) (s : State) : Result := .next (s.aluImm .cp n)
/-- `CP (XY+d)` (R202). -/
def execCpXyd (xy : Xy) (d : Byte) (s : State) : Result := .next (s.aluXyd .cp xy d)
/-- `CP XYh` and `CP XYl` (R202). -/
def execCpXyHalf (xy : Xy) (k : Half) (s : State) : Result := .next (s.aluXyHalf .cp xy k)

/-! ## Increment and decrement (rules R203 .. R210, R216) -/

/-- A register and F from `inc8` or `dec8`. -/
def State.stepReg (s : State) (f : Byte → Byte → Byte × Byte) (r : Reg8) : State :=
  let w := f (s.cpu.reg8 r) s.cpu.f
  (s.setReg8 r w.1).setF w.2

/-- The byte at an address and F from `inc8` or `dec8`. -/
def State.stepMem (s : State) (f : Byte → Byte → Byte × Byte) (addr : Word) : State :=
  let w := f (s.read8 addr) s.cpu.f
  (s.setF w.2).write8 addr w.1

/-- Half an index register and F from `inc8` or `dec8`; no carry into the other half. -/
def State.stepHalf (s : State) (f : Byte → Byte → Byte × Byte) (xy : Xy) (k : Half) : State :=
  let w := f (s.cpu.half xy k) s.cpu.f
  (s.setHalf xy k w.1).setF w.2

/-- `INC r` (R203). -/
def execIncR (r : Reg8) (s : State) : Result := .next ((s.fetched 1 1 4).stepReg inc8 r)

/-- `INC (HL)` (R204). -/
def execIncMemHl (s : State) : Result :=
  let s1 := s.fetched 1 1 11
  .next (s1.stepMem inc8 s1.cpu.hl)

/-- `INC (XY+d)` (R205). -/
def execIncXyd (xy : Xy) (d : Byte) (s : State) : Result :=
  let s1 := s.fetchedIdx xy 3 2 23
  .next (s1.stepMem inc8 (s1.cpu.ea xy d))

/-- `INC XYh` and `INC XYl` (R206). -/
def execIncXyHalf (xy : Xy) (k : Half) (s : State) : Result :=
  .next ((s.fetchedIdx xy 2 2 8).stepHalf inc8 xy k)

/-- `DEC r` (R207). -/
def execDecR (r : Reg8) (s : State) : Result := .next ((s.fetched 1 1 4).stepReg dec8 r)

/-- `DEC (HL)` (R208). -/
def execDecMemHl (s : State) : Result :=
  let s1 := s.fetched 1 1 11
  .next (s1.stepMem dec8 s1.cpu.hl)

/-- `DEC (XY+d)` (R209). -/
def execDecXyd (xy : Xy) (d : Byte) (s : State) : Result :=
  let s1 := s.fetchedIdx xy 3 2 23
  .next (s1.stepMem dec8 (s1.cpu.ea xy d))

/-- `DEC XYh` and `DEC XYl` (R210). -/
def execDecXyHalf (xy : Xy) (k : Half) (s : State) : Result :=
  .next ((s.fetchedIdx xy 2 2 8).stepHalf dec8 xy k)

/-! ## General-purpose accumulator and flag instructions (rules R211 .. R215) -/

/-- `DAA` (R211). -/
def execDaa (s : State) : Result :=
  let s1 := s.fetched 1 1 4
  .next (s1.setAF (daa8 s1.cpu.a s1.cpu.f))

/-- `CPL` (R212). -/
def execCpl (s : State) : Result :=
  let s1 := s.fetched 1 1 4
  let a := s1.cpu.a ^^^ 0xFF#8
  .next (s1.setAF (a, cplFlags a s1.cpu.f))

/-- `NEG`, for each of its eight encodings (R213). -/
def execNeg (_y : Fin 8) (s : State) : Result :=
  let s1 := s.fetched 2 2 8
  .next (s1.setAF (sub8 0#8 s1.cpu.a false))

/-- `CCF` (R214). -/
def execCcf (s : State) : Result :=
  let s1 := s.fetched 1 1 4
  .next (s1.setF (ccfFlags s1.cpu.a s1.cpu.f))

/-- `SCF` (R215). -/
def execScf (s : State) : Result :=
  let s1 := s.fetched 1 1 4
  .next (s1.setF (scfFlags s1.cpu.a s1.cpu.f))

end Sys2Proof.Machine
end

