-- ==== Sys2Proof/Machine/Ula.lean ====
section
/-! DEFINITION. Ula: the port bus, the keyboard matrix and the ULA port model up to the write queue
(spec/50_port_bus_ula.md rules R400 .. R408, R411); `process_events` is in Machine/MainLoop.lean. -/

namespace Sys2Proof.Machine

/-! ## Reads -/

/-- `ear_enabled` is 1 exactly when a tape source is loaded (rule R45, decision D21). -/
def Tape.earEnabled (t : Tape) : Bool := t.source.isSome

/-- The AND of the selected rows, bits 4..0 (rule R403): row `i` is selected by port bit `8 + i` being 0. -/
def keyBits (keys : Vector Byte 8) (port : Word) : Byte :=
  (List.finRange 8).foldl
    (fun k i => if port.getLsbD (8 + i.val) then k else k &&& (keys[i] &&& 0x1F#8)) 0x1F#8

/-- `UlaRead(port)` (rule R403). -/
def State.ulaRead (s : State) (port : Word) : Byte :=
  let ear := if s.tape.earEnabled then s.tape.earLevel else true
  0xA0#8 ||| maskIf ear 0x40#8 ||| keyBits s.keys port

/-- `IoRead(port)` (rules R400, R402): any even port is the ULA, an odd one reads 0xFF. -/
def State.ioRead (s : State) (port : Word) : Byte :=
  if port.getLsbD 0 then 0xFF#8 else s.ulaRead port

/-! ## Writes -/

/-- Append to the write queue, dropping the oldest event when it is full (rules R41, R406). -/
def Ula.enqueue (u : Ula) (v : Byte) (t : Nat) : Ula :=
  let t := max t u.lastT
  let q := if u.queue.length = Config.ulaQueueCap then u.queue.drop 1 else u.queue
  { u with queue := q ++ [{ value := v, tState := t }], lastT := t }

/-- `UlaWrite(v)` (rules R406, R407): the event is stamped `t_base + t`; no latch changes now. -/
def State.ulaWrite (s : State) (v : Byte) : State :=
  { s with ula := s.ula.enqueue v (s.cursor.tBase + s.cursor.t) }

/-- `IoWrite(port, v)` (rules R401, R402): any even port is the ULA, a write to an odd one is dropped. -/
def State.ioWrite (s : State) (port : Word) (v : Byte) : State :=
  if port.getLsbD 0 then s else s.ulaWrite v

/-! ## Host input and readout -/

/-- `SetKey(i, b, pressed)` (rule R405): bit `b` of row `i` cleared when pressed, set when released. -/
def State.setKey (s : State) (row : Fin 8) (column : Fin 5) (pressed : Bool) : State :=
  let m : Byte := 1#8 <<< column.val
  let v := if pressed then s.keys[row] &&& ~~~m else s.keys[row] ||| m
  { s with keys := s.keys.set row.val v row.isLt }

/-- What the renderer reads (rules R77, R411, R545): screen memory 0x4000 .. 0x5AFF and the border colour. -/
def State.screen (s : State) : List Byte × BitVec 3 :=
  ((List.range 0x1B00).map (fun k => s.mem.get (0x4000 + k)), s.ula.border)

end Sys2Proof.Machine
end

