-- ==== Sys2Proof/Machine/Block.lean ====
section
/-! DEFINITION. Block: the meanings of the block transfer, search and I/O instructions (spec/46_block.md rules
R320 .. R337).  `delta` is +1 or -1 modulo 65,536. -/

namespace Sys2Proof.Machine

/-- The step of the ascending instructions. -/
def up : Word := 1#16

/-- The step of the descending instructions. -/
def down : Word := 0xFFFF#16

/-- One more iteration (rule R320): PC goes back to the ED byte and the step takes 5 T-states more. -/
def State.repeatIf (s : State) (again : Bool) : State := if again then (s.setPc (s.cpu.pc - 2#16)).tick 5 else s

/-! ## Block transfer (rules R321 .. R324) -/

/-- One byte from HL to DE, then the three pairs and F. -/
def State.blockLd (s : State) (delta : Word) : State :=
  let s1 := s.fetched 2 2 16
  let v := s1.read8 s1.cpu.hl
  let s2 := s1.write8 s1.cpu.de v
  let s3 := ((s2.setHl (s2.cpu.hl + delta)).setDe (s2.cpu.de + delta)).setBc (s2.cpu.bc - 1#16)
  s3.setF (ldFlags s3.cpu.a v s3.cpu.bc s3.cpu.f)

/-- `LDI` (R321). -/
def execLdi (s : State) : Result := .next (s.blockLd up)

/-- `LDIR` (R322). -/
def execLdir (s : State) : Result :=
  let s1 := s.blockLd up
  .next (s1.repeatIf (s1.cpu.bc != 0#16))

/-- `LDD` (R323). -/
def execLdd (s : State) : Result := .next (s.blockLd down)

/-- `LDDR` (R324). -/
def execLddr (s : State) : Result :=
  let s1 := s.blockLd down
  .next (s1.repeatIf (s1.cpu.bc != 0#16))

/-! ## Block search (rules R325 .. R328) -/

/-- A compared with the byte at HL, then HL, BC and F; A stays. -/
def State.blockCp (s : State) (delta : Word) : State :=
  let s1 := s.fetched 2 2 16
  let v := s1.read8 s1.cpu.hl
  let s2 := (s1.setHl (s1.cpu.hl + delta)).setBc (s1.cpu.bc - 1#16)
  s2.setF (cpFlags s2.cpu.a v s2.cpu.bc s2.cpu.f)

/-- The repeat test of CPIR and CPDR: BC not exhausted and no match. -/
def State.searchGoesOn (s : State) : Bool := s.cpu.bc != 0#16 && !flagZ s.cpu.f

/-- `CPI` (R325). -/
def execCpi (s : State) : Result := .next (s.blockCp up)

/-- `CPIR` (R326). -/
def execCpir (s : State) : Result :=
  let s1 := s.blockCp up
  .next (s1.repeatIf s1.searchGoesOn)

/-- `CPD` (R327). -/
def execCpd (s : State) : Result := .next (s.blockCp down)

/-- `CPDR` (R328). -/
def execCpdr (s : State) : Result :=
  let s1 := s.blockCp down
  .next (s1.repeatIf s1.searchGoesOn)

/-! ## Block I/O (rules R329 .. R337) -/

/-- `ioflags()` (rule R337): the unspecified bits are a free value, a new one each time. -/
def State.drawIoFlags (s : State) : State :=
  { s with
    cpu := { s.cpu with f := ioFlags s.cpu.b s.cpu.f (Config.freeIoFlags s.freeDraws) }
    freeDraws := s.freeDraws + 1 }

/-- A byte from port BC to HL; the port address is BC before B counts (rules R329, R331). -/
def State.blockIn (s : State) (delta : Word) : State :=
  let s1 := s.fetched 2 2 16
  let s2 := s1.write8 s1.cpu.hl (s1.ioRead s1.cpu.bc)
  let s3 := (s2.setHl (s2.cpu.hl + delta)).setB (s2.cpu.b - 1#8)
  s3.drawIoFlags

/-- A byte from HL to port BC; B counts first, and the write falls 12 T-states into the instruction (rules R122, R333,
R335). -/
def State.blockOut (s : State) (delta : Word) : State :=
  let s1 := s.fetched 2 2 12
  let v := s1.read8 s1.cpu.hl
  let s2 := s1.setB (s1.cpu.b - 1#8)
  let s3 := s2.ioWrite s2.cpu.bc v
  ((s3.setHl (s3.cpu.hl + delta)).drawIoFlags).tick 4

/-- The repeat test of the block I/O instructions. -/
def State.countGoesOn (s : State) : Bool := s.cpu.b != 0#8

/-- `INI` (R329). -/
def execIni (s : State) : Result := .next (s.blockIn up)

/-- `INIR` (R330). -/
def execInir (s : State) : Result :=
  let s1 := s.blockIn up
  .next (s1.repeatIf s1.countGoesOn)

/-- `IND` (R331). -/
def execInd (s : State) : Result := .next (s.blockIn down)

/-- `INDR` (R332). -/
def execIndr (s : State) : Result :=
  let s1 := s.blockIn down
  .next (s1.repeatIf s1.countGoesOn)

/-- `OUTI` (R333). -/
def execOuti (s : State) : Result := .next (s.blockOut up)

/-- `OTIR` (R334). -/
def execOtir (s : State) : Result :=
  let s1 := s.blockOut up
  .next (s1.repeatIf s1.countGoesOn)

/-- `OUTD` (R335). -/
def execOutd (s : State) : Result := .next (s.blockOut down)

/-- `OTDR` (R336). -/
def execOtdr (s : State) : Result :=
  let s1 := s.blockOut down
  .next (s1.repeatIf s1.countGoesOn)

end Sys2Proof.Machine
end

