-- ==== Sys2Proof/Machine/Control.lean ====
section
/-! DEFINITION. Control: the meanings of the jumps, calls, returns and restarts (spec/45_control_transfer.md rules
R290 .. R307). -/

namespace Sys2Proof.Machine

/-- A taken relative jump, from the PC after the fetch (rule R101). -/
def State.jumpRel (s : State) (e : Byte) : State := s.setPc (s.cpu.pc + sext16 e)

/-- `JR cc`: 7 T-states, 5 more when taken (rules R294 .. R297). -/
def State.jrIf (s : State) (taken : Bool) (e : Byte) : State :=
  let s1 := s.fetched 2 1 7
  if taken then (s1.jumpRel e).tick 5 else s1

/-- Push the PC after the fetch and go to `target` (rules R301, R307). -/
def State.callTo (s : State) (target : Word) : State := (s.push16 s.cpu.pc).setPc target

/-- PC from the stack (rule R303). -/
def State.popPc (s : State) : State :=
  let w := s.pop16
  w.2.setPc w.1

/-- `JP nn` (R291). -/
def execJpNn (nn : Word) (s : State) : Result := .next ((s.fetched 3 1 10).setPc nn)

/-- `JP cc,nn` (R292). -/
def execJpCcNn (cc : Cond) (nn : Word) (s : State) : Result :=
  let s1 := s.fetched 3 1 10
  .next (if condHolds cc s1.cpu.f then s1.setPc nn else s1)

/-- `JR e` (R293). -/
def execJr (e : Byte) (s : State) : Result := .next ((s.fetched 2 1 12).jumpRel e)

/-- `JR C,e` (R294). -/
def execJrC (e : Byte) (s : State) : Result := .next (s.jrIf (flagC s.cpu.f) e)

/-- `JR NC,e` (R295). -/
def execJrNc (e : Byte) (s : State) : Result := .next (s.jrIf (!flagC s.cpu.f) e)

/-- `JR Z,e` (R296). -/
def execJrZ (e : Byte) (s : State) : Result := .next (s.jrIf (flagZ s.cpu.f) e)

/-- `JR NZ,e` (R297). -/
def execJrNz (e : Byte) (s : State) : Result := .next (s.jrIf (!flagZ s.cpu.f) e)

/-- `JP (HL)` (R298). -/
def execJpHl (s : State) : Result :=
  let s1 := s.fetched 1 1 4
  .next (s1.setPc s1.cpu.hl)

/-- `JP (XY)` (R299): no displacement. -/
def execJpXy (xy : Xy) (s : State) : Result :=
  let s1 := s.fetchedIdx xy 2 2 8
  .next (s1.setPc (s1.cpu.xy xy))

/-- `DJNZ e` (R300): 8 T-states, 5 more when taken. -/
def execDjnz (e : Byte) (s : State) : Result :=
  let s1 := s.fetched 2 1 8
  let s2 := s1.setB (s1.cpu.b - 1#8)
  .next (if s2.cpu.b ≠ 0#8 then (s2.jumpRel e).tick 5 else s2)

/-- `CALL nn` (R301). -/
def execCallNn (nn : Word) (s : State) : Result := .next ((s.fetched 3 1 17).callTo nn)

/-- `CALL cc,nn` (R302): 10 T-states, 7 more when taken. -/
def execCallCcNn (cc : Cond) (nn : Word) (s : State) : Result :=
  let s1 := s.fetched 3 1 10
  .next (if condHolds cc s1.cpu.f then (s1.callTo nn).tick 7 else s1)

/-- `RET` (R303). -/
def execRet (s : State) : Result := .next ((s.fetched 1 1 10).popPc)

/-- `RET cc` (R304): 5 T-states, 6 more when taken. -/
def execRetCc (cc : Cond) (s : State) : Result :=
  let s1 := s.fetched 1 1 5
  .next (if condHolds cc s1.cpu.f then s1.popPc.tick 6 else s1)

/-- `RETI` (R305). -/
def execReti (s : State) : Result := .next ((s.fetched 2 2 14).returnFromInterrupt)

/-- `RETN`, for each of its seven encodings (R306). -/
def execRetn (_y : Fin 8) (s : State) : Result := .next ((s.fetched 2 2 14).returnFromInterrupt)

/-- `RST p` (R307), `p = 8 * y`. -/
def execRst (y : Fin 8) (s : State) : Result := .next ((s.fetched 1 1 11).callTo (BitVec.ofNat 16 (8 * y.val)))

end Sys2Proof.Machine
end

