-- ==== Sys2Proof/Machine/IoControl.lean ====
section
/-! DEFINITION. IoControl: the meanings of the input/output and CPU control instructions (spec/47_io_cpu_control.md rules
R350 .. R362); a port write stands at the T-state rule R122 gives it. -/

namespace Sys2Proof.Machine

/-! ## Input and output -/

/-- `IN A,(n)` (R350): the old A is the high byte of the port. -/
def execInAN (n : Byte) (s : State) : Result :=
  let s1 := s.fetched 2 1 11
  .next (s1.setA (s1.ioRead (mkWord s1.cpu.a n)))

/-- `IN r,(C)` (R351). -/
def execInRC (r : Reg8) (s : State) : Result :=
  let s1 := s.fetched 2 2 12
  let v := s1.ioRead s1.cpu.bc
  .next ((s1.setReg8 r v).setF (inFlags v s1.cpu.f))

/-- `IN F,(C)` (R352). -/
def execInFC (s : State) : Result :=
  let s1 := s.fetched 2 2 12
  .next (s1.setF (inFlags (s1.ioRead s1.cpu.bc) s1.cpu.f))

/-- `OUT (n),A` (R353): written at t = 7 of 11. -/
def execOutNA (n : Byte) (s : State) : Result :=
  let s1 := s.fetched 2 1 7
  .next ((s1.ioWrite (mkWord s1.cpu.a n) s1.cpu.a).tick 4)

/-- `OUT (C)` with a value: written at t = 8 of 12. -/
def State.outC (s : State) (v : Byte) : State :=
  let s1 := s.fetched 2 2 8
  (s1.ioWrite s1.cpu.bc v).tick 4

/-- `OUT (C),r` (R354). -/
def execOutCR (r : Reg8) (s : State) : Result := .next (s.outC (s.cpu.reg8 r))

/-- `OUT (C),0` (R355). -/
def execOutC0 (s : State) : Result := .next (s.outC 0#8)

/-! ## CPU control -/

/-- `NOP` (R356). -/
def execNop (s : State) : Result := .next (s.fetched 1 1 4)

/-- `HALT` (R357): PC stays on the HALT byte. -/
def execHalt (s : State) : Result :=
  let s1 := s.fetched 1 1 4
  .next (s1.setCpu { s1.cpu with halted := true, pc := s1.cpu.pc - 1#16 })

/-- `DI` (R358). -/
def execDi (s : State) : Result :=
  let s1 := s.fetched 1 1 4
  .next (s1.setCpu { s1.cpu with iff1 := false, iff2 := false })

/-- `EI` (R359): the flip-flops change at the start of the next step. -/
def execEi (s : State) : Result :=
  let s1 := s.fetched 1 1 4
  .next (s1.setCpu { s1.cpu with eiDelay := true })

/-- The interrupt mode. -/
def State.setIm (s : State) (m : IntMode) : State :=
  let s1 := s.fetched 2 2 8
  s1.setCpu { s1.cpu with im := m }

/-- `IM 0` (R360). -/
def execIm0 (s : State) : Result := .next (s.setIm .im0)
/-- `IM 1` (R361). -/
def execIm1 (s : State) : Result := .next (s.setIm .im1)
/-- `IM 2` (R362). -/
def execIm2 (s : State) : Result := .next (s.setIm .im2)

end Sys2Proof.Machine
end

