-- ==== Sys2Proof/Machine/Load16.lean ====
section
/-! DEFINITION. Load16: the meanings of the 16-bit loads, the stack and the exchanges (spec/41_load16_exchange.md rules
R160 .. R178). -/

namespace Sys2Proof.Machine

/-- `LD dd,nn` (R160). -/
def execLdRpNn (p : Rp) (nn : Word) (s : State) : Result :=
  .next ((s.fetched 3 1 10).setRp p nn)

/-- `LD HL,(nn)` (R161). -/
def execLdHlMemNn (nn : Word) (s : State) : Result :=
  let s1 := s.fetched 3 1 16
  .next (s1.setHl (s1.read16 nn))

/-- `LD (nn),HL` (R162). -/
def execLdMemNnHl (nn : Word) (s : State) : Result :=
  let s1 := s.fetched 3 1 16
  .next (s1.write16 nn s1.cpu.hl)

/-- `LD dd,(nn)` (R163). -/
def execLdRpMemNn (p : Rp) (nn : Word) (s : State) : Result :=
  let s1 := s.fetched 4 2 20
  .next (s1.setRp p (s1.read16 nn))

/-- `LD (nn),dd` (R164). -/
def execLdMemNnRp (p : Rp) (nn : Word) (s : State) : Result :=
  let s1 := s.fetched 4 2 20
  .next (s1.write16 nn (s1.cpu.rp p))

/-- `LD SP,HL` (R165). -/
def execLdSpHl (s : State) : Result :=
  let s1 := s.fetched 1 1 6
  .next (s1.setSp s1.cpu.hl)

/-- `PUSH qq` (R166). -/
def execPushRp2 (p : Rp2) (s : State) : Result :=
  let s1 := s.fetched 1 1 11
  .next (s1.push16 (s1.cpu.rp2 p))

/-- `POP qq` (R167); POP AF loads all of F. -/
def execPopRp2 (p : Rp2) (s : State) : Result :=
  let w := (s.fetched 1 1 10).pop16
  .next (w.2.setRp2 p w.1)

/-- `LD XY,nn` (R168). -/
def execLdXyNn (xy : Xy) (nn : Word) (s : State) : Result :=
  .next ((s.fetchedIdx xy 4 2 14).setXy xy nn)

/-- `LD XY,(nn)` (R169). -/
def execLdXyMemNn (xy : Xy) (nn : Word) (s : State) : Result :=
  let s1 := s.fetchedIdx xy 4 2 20
  .next (s1.setXy xy (s1.read16 nn))

/-- `LD (nn),XY` (R170). -/
def execLdMemNnXy (xy : Xy) (nn : Word) (s : State) : Result :=
  let s1 := s.fetchedIdx xy 4 2 20
  .next (s1.write16 nn (s1.cpu.xy xy))

/-- `LD SP,XY` (R171). -/
def execLdSpXy (xy : Xy) (s : State) : Result :=
  let s1 := s.fetchedIdx xy 2 2 10
  .next (s1.setSp (s1.cpu.xy xy))

/-- `PUSH XY` (R172). -/
def execPushXy (xy : Xy) (s : State) : Result :=
  let s1 := s.fetchedIdx xy 2 2 15
  .next (s1.push16 (s1.cpu.xy xy))

/-- `POP XY` (R173). -/
def execPopXy (xy : Xy) (s : State) : Result :=
  let w := (s.fetchedIdx xy 2 2 14).pop16
  .next (w.2.setXy xy w.1)

/-- `EX DE,HL` (R174). -/
def execExDeHl (s : State) : Result :=
  let s1 := s.fetched 1 1 4
  .next (s1.setCpu { s1.cpu with d := s1.cpu.h, e := s1.cpu.l, h := s1.cpu.d, l := s1.cpu.e })

/-- `EX AF,AF'` (R175). -/
def execExAfAf (s : State) : Result :=
  let s1 := s.fetched 1 1 4
  .next (s1.setCpu { s1.cpu with a := s1.cpu.aAlt, f := s1.cpu.fAlt, aAlt := s1.cpu.a, fAlt := s1.cpu.f })

/-- `EXX` (R176). -/
def execExx (s : State) : Result :=
  let s1 := s.fetched 1 1 4
  let c := s1.cpu
  .next (s1.setCpu
    { c with b := c.bAlt, c := c.cAlt, d := c.dAlt, e := c.eAlt, h := c.hAlt, l := c.lAlt,
             bAlt := c.b, cAlt := c.c, dAlt := c.d, eAlt := c.e, hAlt := c.h, lAlt := c.l })

/-- `EX (SP),HL` (R177): SP stays. -/
def execExSpHl (s : State) : Result :=
  let s1 := s.fetched 1 1 19
  .next ((s1.write16 s1.cpu.sp s1.cpu.hl).setHl (s1.read16 s1.cpu.sp))

/-- `EX (SP),XY` (R178): SP stays. -/
def execExSpXy (xy : Xy) (s : State) : Result :=
  let s1 := s.fetchedIdx xy 2 2 23
  .next ((s1.write16 s1.cpu.sp (s1.cpu.xy xy)).setXy xy (s1.read16 s1.cpu.sp))

end Sys2Proof.Machine
end

