-- ==== Sys2Proof/Machine/Load8.lean ====
section
/-! DEFINITION. Load8: the meanings of the 8-bit loads (spec/40_load8.md rules R130 .. R149). -/

namespace Sys2Proof.Machine

/-- `LD r,r'` (R130). -/
def execLdRR (r q : Reg8) (s : State) : Result :=
  let s1 := s.fetched 1 1 4
  .next (s1.setReg8 r (s1.cpu.reg8 q))

/-- `LD r,n` (R131). -/
def execLdRN (r : Reg8) (n : Byte) (s : State) : Result :=
  .next ((s.fetched 2 1 7).setReg8 r n)

/-- `LD r,(HL)` (R132). -/
def execLdRMemHl (r : Reg8) (s : State) : Result :=
  let s1 := s.fetched 1 1 7
  .next (s1.setReg8 r (s1.read8 s1.cpu.hl))

/-- `LD (HL),r` (R133). -/
def execLdMemHlR (r : Reg8) (s : State) : Result :=
  let s1 := s.fetched 1 1 7
  .next (s1.write8 s1.cpu.hl (s1.cpu.reg8 r))

/-- `LD (HL),n` (R134). -/
def execLdMemHlN (n : Byte) (s : State) : Result :=
  let s1 := s.fetched 2 1 10
  .next (s1.write8 s1.cpu.hl n)

/-- `LD A,(BC)` (R135). -/
def execLdAMemBc (s : State) : Result :=
  let s1 := s.fetched 1 1 7
  .next (s1.setA (s1.read8 s1.cpu.bc))

/-- `LD A,(DE)` (R136). -/
def execLdAMemDe (s : State) : Result :=
  let s1 := s.fetched 1 1 7
  .next (s1.setA (s1.read8 s1.cpu.de))

/-- `LD A,(nn)` (R137). -/
def execLdAMemNn (nn : Word) (s : State) : Result :=
  let s1 := s.fetched 3 1 13
  .next (s1.setA (s1.read8 nn))

/-- `LD (BC),A` (R138). -/
def execLdMemBcA (s : State) : Result :=
  let s1 := s.fetched 1 1 7
  .next (s1.write8 s1.cpu.bc s1.cpu.a)

/-- `LD (DE),A` (R139). -/
def execLdMemDeA (s : State) : Result :=
  let s1 := s.fetched 1 1 7
  .next (s1.write8 s1.cpu.de s1.cpu.a)

/-- `LD (nn),A` (R140). -/
def execLdMemNnA (nn : Word) (s : State) : Result :=
  let s1 := s.fetched 3 1 13
  .next (s1.write8 nn s1.cpu.a)

/-- What `LD A,I` and `LD A,R` do with the value read (R141, R142). -/
def State.loadAir (s : State) (v : Byte) : State :=
  s.setAF (v, ldAirFlags v s.cpu.f s.cpu.iff2)

/-- `LD A,I` (R141). -/
def execLdAI (s : State) : Result :=
  let s1 := s.fetched 2 2 9
  .next (s1.loadAir s1.cpu.i)

/-- `LD A,R` (R142): R as this instruction's own two fetches leave it. -/
def execLdARefresh (s : State) : Result :=
  let s1 := s.fetched 2 2 9
  .next (s1.loadAir s1.cpu.r)

/-- `LD I,A` (R143). -/
def execLdIA (s : State) : Result :=
  let s1 := s.fetched 2 2 9
  .next (s1.setCpu { s1.cpu with i := s1.cpu.a })

/-- `LD R,A` (R144): after this instruction's own two fetches, all eight bits. -/
def execLdRefreshA (s : State) : Result :=
  let s1 := s.fetched 2 2 9
  .next (s1.setCpu { s1.cpu with r := s1.cpu.a })

/-- `LD r,(XY+d)` (R145): H and L are the real ones. -/
def execLdRXyd (xy : Xy) (r : Reg8) (d : Byte) (s : State) : Result :=
  let s1 := s.fetchedIdx xy 3 2 19
  .next (s1.setReg8 r (s1.read8 (s1.cpu.ea xy d)))

/-- `LD (XY+d),r` (R146): H and L are the real ones. -/
def execLdXydR (xy : Xy) (d : Byte) (r : Reg8) (s : State) : Result :=
  let s1 := s.fetchedIdx xy 3 2 19
  .next (s1.write8 (s1.cpu.ea xy d) (s1.cpu.reg8 r))

/-- `LD (XY+d),n` (R147). -/
def execLdXydN (xy : Xy) (d n : Byte) (s : State) : Result :=
  let s1 := s.fetchedIdx xy 4 2 19
  .next (s1.write8 (s1.cpu.ea xy d) n)

/-- `LD r,r'` with XYh and XYl for H and L (R148). -/
def execLdRRXy (xy : Xy) (r q : Reg8) (s : State) : Result :=
  let s1 := s.fetchedIdx xy 2 2 8
  .next (s1.setReg8Xy xy r (s1.cpu.reg8Xy xy q))

/-- `LD XYh,n` and `LD XYl,n` (R149). -/
def execLdXyHalfN (xy : Xy) (k : Half) (n : Byte) (s : State) : Result :=
  .next ((s.fetchedIdx xy 3 2 11).setHalf xy k n)

end Sys2Proof.Machine
end

