-- ==== Sys2Proof/Machine/RotateBit.lean ====
section
/-! DEFINITION. RotateBit: the meanings of the rotates, shifts and bit instructions (spec/44_rotate_shift_bit.md rules
R250 .. R275). -/

namespace Sys2Proof.Machine

/-! ## Accumulator rotates (rules R250 .. R253) -/

/-- The four one-byte rotates of A. -/
def State.rotateA (s : State) (op : RotOp) : State :=
  let s1 := s.fetched 1 1 4
  s1.setAF (rotA op s1.cpu.a s1.cpu.f)

/-- `RLCA` (R250). -/
def execRlca (s : State) : Result := .next (s.rotateA .rlc)
/-- `RLA` (R251). -/
def execRla (s : State) : Result := .next (s.rotateA .rl)
/-- `RRCA` (R252). -/
def execRrca (s : State) : Result := .next (s.rotateA .rrc)
/-- `RRA` (R253). -/
def execRra (s : State) : Result := .next (s.rotateA .rr)

/-! ## Rotates and shifts of the CB table (rules R254 .. R263, R275) -/

/-- The `r` form (R255): T = 8. -/
def State.rotReg (s : State) (op : RotOp) (r : Reg8) : State :=
  let s1 := s.fetched 2 2 8
  let w := rot8 op (s1.cpu.reg8 r) s1.cpu.f
  (s1.setF w.2).setReg8 r w.1

/-- F and the byte at an address from `rot8`; also the value written. -/
def State.rotMem (s : State) (op : RotOp) (addr : Word) : Byte × State :=
  let w := rot8 op (s.read8 addr) s.cpu.f
  (w.1, (s.setF w.2).write8 addr w.1)

/-- The `(HL)` form (R255): T = 15. -/
def State.rotMemHl (s : State) (op : RotOp) : State :=
  let s1 := s.fetched 2 2 15
  (s1.rotMem op s1.cpu.hl).2

/-- The `(XY+d)` form (R255): T = 23. -/
def State.rotXyd (s : State) (op : RotOp) (xy : Xy) (d : Byte) : State :=
  let s1 := s.fetchedIdx xy 4 2 23
  (s1.rotMem op (s1.cpu.ea xy d)).2

/-- The register-copy form (R275): the result goes to the byte and to the register, written to ROM or not. -/
def State.rotXydR (s : State) (op : RotOp) (xy : Xy) (d : Byte) (r : Reg8) : State :=
  let s1 := s.fetchedIdx xy 4 2 23
  let w := s1.rotMem op (s1.cpu.ea xy d)
  w.2.setReg8 r w.1

/-- `RLC r` (R256). -/
def execRlcR (r : Reg8) (s : State) : Result := .next (s.rotReg .rlc r)
/-- `RLC (HL)` (R256). -/
def execRlcMemHl (s : State) : Result := .next (s.rotMemHl .rlc)
/-- `RLC (XY+d)` (R256). -/
def execRlcXyd (xy : Xy) (d : Byte) (s : State) : Result := .next (s.rotXyd .rlc xy d)
/-- `RLC (XY+d),r` (R256, R275). -/
def execRlcXydR (xy : Xy) (d : Byte) (r : Reg8) (s : State) : Result := .next (s.rotXydR .rlc xy d r)

/-- `RRC r` (R257). -/
def execRrcR (r : Reg8) (s : State) : Result := .next (s.rotReg .rrc r)
/-- `RRC (HL)` (R257). -/
def execRrcMemHl (s : State) : Result := .next (s.rotMemHl .rrc)
/-- `RRC (XY+d)` (R257). -/
def execRrcXyd (xy : Xy) (d : Byte) (s : State) : Result := .next (s.rotXyd .rrc xy d)
/-- `RRC (XY+d),r` (R257, R275). -/
def execRrcXydR (xy : Xy) (d : Byte) (r : Reg8) (s : State) : Result := .next (s.rotXydR .rrc xy d r)

/-- `RL r` (R258). -/
def execRlR (r : Reg8) (s : State) : Result := .next (s.rotReg .rl r)
/-- `RL (HL)` (R258). -/
def execRlMemHl (s : State) : Result := .next (s.rotMemHl .rl)
/-- `RL (XY+d)` (R258). -/
def execRlXyd (xy : Xy) (d : Byte) (s : State) : Result := .next (s.rotXyd .rl xy d)
/-- `RL (XY+d),r` (R258, R275). -/
def execRlXydR (xy : Xy) (d : Byte) (r : Reg8) (s : State) : Result := .next (s.rotXydR .rl xy d r)

/-- `RR r` (R259). -/
def execRrR (r : Reg8) (s : State) : Result := .next (s.rotReg .rr r)
/-- `RR (HL)` (R259). -/
def execRrMemHl (s : State) : Result := .next (s.rotMemHl .rr)
/-- `RR (XY+d)` (R259). -/
def execRrXyd (xy : Xy) (d : Byte) (s : State) : Result := .next (s.rotXyd .rr xy d)
/-- `RR (XY+d),r` (R259, R275). -/
def execRrXydR (xy : Xy) (d : Byte) (r : Reg8) (s : State) : Result := .next (s.rotXydR .rr xy d r)

/-- `SLA r` (R260). -/
def execSlaR (r : Reg8) (s : State) : Result := .next (s.rotReg .sla r)
/-- `SLA (HL)` (R260). -/
def execSlaMemHl (s : State) : Result := .next (s.rotMemHl .sla)
/-- `SLA (XY+d)` (R260). -/
def execSlaXyd (xy : Xy) (d : Byte) (s : State) : Result := .next (s.rotXyd .sla xy d)
/-- `SLA (XY+d),r` (R260, R275). -/
def execSlaXydR (xy : Xy) (d : Byte) (r : Reg8) (s : State) : Result := .next (s.rotXydR .sla xy d r)

/-- `SRA r` (R261). -/
def execSraR (r : Reg8) (s : State) : Result := .next (s.rotReg .sra r)
/-- `SRA (HL)` (R261). -/
def execSraMemHl (s : State) : Result := .next (s.rotMemHl .sra)
/-- `SRA (XY+d)` (R261). -/
def execSraXyd (xy : Xy) (d : Byte) (s : State) : Result := .next (s.rotXyd .sra xy d)
/-- `SRA (XY+d),r` (R261, R275). -/
def execSraXydR (xy : Xy) (d : Byte) (r : Reg8) (s : State) : Result := .next (s.rotXydR .sra xy d r)

/-- `SLL r` (R262). -/
def execSllR (r : Reg8) (s : State) : Result := .next (s.rotReg .sll r)
/-- `SLL (HL)` (R262). -/
def execSllMemHl (s : State) : Result := .next (s.rotMemHl .sll)
/-- `SLL (XY+d)` (R262). -/
def execSllXyd (xy : Xy) (d : Byte) (s : State) : Result := .next (s.rotXyd .sll xy d)
/-- `SLL (XY+d),r` (R262, R275). -/
def execSllXydR (xy : Xy) (d : Byte) (r : Reg8) (s : State) : Result := .next (s.rotXydR .sll xy d r)

/-- `SRL r` (R263). -/
def execSrlR (r : Reg8) (s : State) : Result := .next (s.rotReg .srl r)
/-- `SRL (HL)` (R263). -/
def execSrlMemHl (s : State) : Result := .next (s.rotMemHl .srl)
/-- `SRL (XY+d)` (R263). -/
def execSrlXyd (xy : Xy) (d : Byte) (s : State) : Result := .next (s.rotXyd .srl xy d)
/-- `SRL (XY+d),r` (R263, R275). -/
def execSrlXydR (xy : Xy) (d : Byte) (r : Reg8) (s : State) : Result := .next (s.rotXydR .srl xy d r)

/-! ## Digit rotates (rules R264, R265) -/

/-- A, F and the byte at HL from `rld8` or `rrd8`. -/
def State.rotateDigits (s : State) (f : Byte → Byte → Byte × Byte) : State :=
  let s1 := s.fetched 2 2 18
  let w := f s1.cpu.a (s1.read8 s1.cpu.hl)
  (s1.setAF (w.1, inFlags w.1 s1.cpu.f)).write8 s1.cpu.hl w.2

/-- `RLD` (R264). -/
def execRld (s : State) : Result := .next (s.rotateDigits rld8)

/-- `RRD` (R265). -/
def execRrd (s : State) : Result := .next (s.rotateDigits rrd8)

/-! ## Bit test (rules R270 .. R272) -/

/-- `BIT b,r` (R270). -/
def execBitR (y : Fin 8) (r : Reg8) (s : State) : Result :=
  let s1 := s.fetched 2 2 8
  let v := s1.cpu.reg8 r
  .next (s1.setF (bitFlags y v v s1.cpu.f))

/-- `BIT b,(HL)` (R271): X and Y from the byte read. -/
def execBitMemHl (y : Fin 8) (s : State) : Result :=
  let s1 := s.fetched 2 2 12
  let v := s1.read8 s1.cpu.hl
  .next (s1.setF (bitFlags y v v s1.cpu.f))

/-- `BIT b,(XY+d)`, for each of its eight encodings (R272): X and Y from the high byte of the address. -/
def execBitXyd (xy : Xy) (d : Byte) (y _z : Fin 8) (s : State) : Result :=
  let s1 := s.fetchedIdx xy 4 2 20
  let ea := s1.cpu.ea xy d
  .next (s1.setF (bitFlags y (s1.read8 ea) (hiByte ea) s1.cpu.f))

/-! ## Set and reset (rules R273, R274, R275) -/

/-- The `r` form of SET and RES (R255): T = 8. -/
def State.bitReg (s : State) (f : Byte → Byte) (r : Reg8) : State :=
  let s1 := s.fetched 2 2 8
  s1.setReg8 r (f (s1.cpu.reg8 r))

/-- The `(HL)` form (R255): T = 15. -/
def State.bitMemHl (s : State) (f : Byte → Byte) : State :=
  let s1 := s.fetched 2 2 15
  s1.write8 s1.cpu.hl (f (s1.read8 s1.cpu.hl))

/-- The `(XY+d)` form (R255): T = 23. -/
def State.bitXyd (s : State) (f : Byte → Byte) (xy : Xy) (d : Byte) : State :=
  let s1 := s.fetchedIdx xy 4 2 23
  s1.write8 (s1.cpu.ea xy d) (f (s1.read8 (s1.cpu.ea xy d)))

/-- The register-copy form (R275). -/
def State.bitXydR (s : State) (f : Byte → Byte) (xy : Xy) (d : Byte) (r : Reg8) : State :=
  let s1 := s.fetchedIdx xy 4 2 23
  let v := f (s1.read8 (s1.cpu.ea xy d))
  (s1.write8 (s1.cpu.ea xy d) v).setReg8 r v

/-- `SET b,r` (R273). -/
def execSetR (y : Fin 8) (r : Reg8) (s : State) : Result := .next (s.bitReg (setBit y) r)
/-- `SET b,(HL)` (R273). -/
def execSetMemHl (y : Fin 8) (s : State) : Result := .next (s.bitMemHl (setBit y))
/-- `SET b,(XY+d)` (R273). -/
def execSetXyd (xy : Xy) (d : Byte) (y : Fin 8) (s : State) : Result := .next (s.bitXyd (setBit y) xy d)
/-- `SET b,(XY+d),r` (R273, R275). -/
def execSetXydR (xy : Xy) (d : Byte) (y : Fin 8) (r : Reg8) (s : State) : Result :=
  .next (s.bitXydR (setBit y) xy d r)

/-- `RES b,r` (R274). -/
def execResR (y : Fin 8) (r : Reg8) (s : State) : Result := .next (s.bitReg (resBit y) r)
/-- `RES b,(HL)` (R274). -/
def execResMemHl (y : Fin 8) (s : State) : Result := .next (s.bitMemHl (resBit y))
/-- `RES b,(XY+d)` (R274). -/
def execResXyd (xy : Xy) (d : Byte) (y : Fin 8) (s : State) : Result := .next (s.bitXyd (resBit y) xy d)
/-- `RES b,(XY+d),r` (R274, R275). -/
def execResXydR (xy : Xy) (d : Byte) (y : Fin 8) (r : Reg8) (s : State) : Result :=
  .next (s.bitXydR (resBit y) xy d r)

end Sys2Proof.Machine
end

