-- ==== Sys2Proof/Machine/Prefix.lean ====
section
/-! DEFINITION. Prefix: the meanings of the rows that are no instruction of their own (spec/30_encoding.md rules R103,
R107, R111, R114; spec/47_io_cpu_control.md rule R363): the bare prefix bytes, an undefined ED sub-opcode, and an index
prefix in front of something it does not alter. -/

namespace Sys2Proof.Machine

/-- The byte CB: its fetch (R102 step 3); the sub-opcode decides the rest, so memory never gives this alone (log 19). -/
def execPrefixCb (s : State) : Result := .next (s.fetched 1 1 4)

/-- The byte ED: its fetch (log 19). -/
def execPrefixEd (s : State) : Result := .next (s.fetched 1 1 4)

/-- The byte DD or FD: its fetch, and the index mode (R102 step 4, R103; log 19). -/
def execPrefixXy (xy : Xy) (s : State) : Result := .next (s.fetchedXy xy)

/-- An undefined ED sub-opcode (R114): the fatal fault, with PC and R past the bytes fetched (R560, R561). -/
def execUndefinedEd (op : Byte) (s : State) : Result := .next ((s.fetched 2 2 8).raiseUnknownOpcode op)

/-- What runs after an index prefix byte that does not alter it: the instruction's own meaning, on the state the prefix
left; a further prefix of the run is fetched in its turn (R103, R107, R363). -/
def runAfterXy : Instr → State → Result
  | .nop, s => execNop s
  | .exAfAf, s => execExAfAf s
  | .djnz e, s => execDjnz e s
  | .jr e, s => execJr e s
  | .jrNz e, s => execJrNz e s
  | .jrZ e, s => execJrZ e s
  | .jrNc e, s => execJrNc e s
  | .jrC e, s => execJrC e s
  | .ldRpNn p nn, s => execLdRpNn p nn s
  | .addHlRp p, s => execAddHlRp p s
  | .ldMemBcA, s => execLdMemBcA s
  | .ldMemDeA, s => execLdMemDeA s
  | .ldMemNnHl nn, s => execLdMemNnHl nn s
  | .ldMemNnA nn, s => execLdMemNnA nn s
  | .ldAMemBc, s => execLdAMemBc s
  | .ldAMemDe, s => execLdAMemDe s
  | .ldHlMemNn nn, s => execLdHlMemNn nn s
  | .ldAMemNn nn, s => execLdAMemNn nn s
  | .incRp p, s => execIncRp p s
  | .decRp p, s => execDecRp p s
  | .incR r, s => execIncR r s
  | .incMemHl, s => execIncMemHl s
  | .decR r, s => execDecR r s
  | .decMemHl, s => execDecMemHl s
  | .ldRN r n, s => execLdRN r n s
  | .ldMemHlN n, s => execLdMemHlN n s
  | .rlca, s => execRlca s
  | .rrca, s => execRrca s
  | .rla, s => execRla s
  | .rra, s => execRra s
  | .daa, s => execDaa s
  | .cpl, s => execCpl s
  | .scf, s => execScf s
  | .ccf, s => execCcf s
  | .ldRR r q, s => execLdRR r q s
  | .ldRMemHl r, s => execLdRMemHl r s
  | .ldMemHlR r, s => execLdMemHlR r s
  | .halt, s => execHalt s
  | .addR r, s => execAddR r s
  | .addMemHl, s => execAddMemHl s
  | .addN n, s => execAddN n s
  | .adcR r, s => execAdcR r s
  | .adcMemHl, s => execAdcMemHl s
  | .adcN n, s => execAdcN n s
  | .subR r, s => execSubR r s
  | .subMemHl, s => execSubMemHl s
  | .subN n, s => execSubN n s
  | .sbcR r, s => execSbcR r s
  | .sbcMemHl, s => execSbcMemHl s
  | .sbcN n, s => execSbcN n s
  | .andR r, s => execAndR r s
  | .andMemHl, s => execAndMemHl s
  | .andN n, s => execAndN n s
  | .xorR r, s => execXorR r s
  | .xorMemHl, s => execXorMemHl s
  | .xorN n, s => execXorN n s
  | .orR r, s => execOrR r s
  | .orMemHl, s => execOrMemHl s
  | .orN n, s => execOrN n s
  | .cpR r, s => execCpR r s
  | .cpMemHl, s => execCpMemHl s
  | .cpN n, s => execCpN n s
  | .retCc cc, s => execRetCc cc s
  | .popRp2 p, s => execPopRp2 p s
  | .ret, s => execRet s
  | .exx, s => execExx s
  | .jpHl, s => execJpHl s
  | .ldSpHl, s => execLdSpHl s
  | .jpCcNn cc nn, s => execJpCcNn cc nn s
  | .jpNn nn, s => execJpNn nn s
  | .outNA n, s => execOutNA n s
  | .inAN n, s => execInAN n s
  | .exSpHl, s => execExSpHl s
  | .exDeHl, s => execExDeHl s
  | .di, s => execDi s
  | .ei, s => execEi s
  | .callCcNn cc nn, s => execCallCcNn cc nn s
  | .pushRp2 p, s => execPushRp2 p s
  | .callNn nn, s => execCallNn nn s
  | .rst y, s => execRst y s
  | .prefixCb, s => execPrefixCb s
  | .prefixEd, s => execPrefixEd s
  | .prefixXy xy, s => execPrefixXy xy s
  | .rlcR r, s => execRlcR r s
  | .rlcMemHl, s => execRlcMemHl s
  | .rrcR r, s => execRrcR r s
  | .rrcMemHl, s => execRrcMemHl s
  | .rlR r, s => execRlR r s
  | .rlMemHl, s => execRlMemHl s
  | .rrR r, s => execRrR r s
  | .rrMemHl, s => execRrMemHl s
  | .slaR r, s => execSlaR r s
  | .slaMemHl, s => execSlaMemHl s
  | .sraR r, s => execSraR r s
  | .sraMemHl, s => execSraMemHl s
  | .sllR r, s => execSllR r s
  | .sllMemHl, s => execSllMemHl s
  | .srlR r, s => execSrlR r s
  | .srlMemHl, s => execSrlMemHl s
  | .bitR y r, s => execBitR y r s
  | .bitMemHl y, s => execBitMemHl y s
  | .resR y r, s => execResR y r s
  | .resMemHl y, s => execResMemHl y s
  | .setR y r, s => execSetR y r s
  | .setMemHl y, s => execSetMemHl y s
  | .inRC r, s => execInRC r s
  | .inFC, s => execInFC s
  | .outCR r, s => execOutCR r s
  | .outC0, s => execOutC0 s
  | .sbcHlRp p, s => execSbcHlRp p s
  | .adcHlRp p, s => execAdcHlRp p s
  | .ldMemNnRp p nn, s => execLdMemNnRp p nn s
  | .ldRpMemNn p nn, s => execLdRpMemNn p nn s
  | .neg y, s => execNeg y s
  | .reti, s => execReti s
  | .retn y, s => execRetn y s
  | .im0, s => execIm0 s
  | .im1, s => execIm1 s
  | .im2, s => execIm2 s
  | .ldIA, s => execLdIA s
  | .ldRefreshA, s => execLdRefreshA s
  | .ldAI, s => execLdAI s
  | .ldARefresh, s => execLdARefresh s
  | .rrd, s => execRrd s
  | .rld, s => execRld s
  | .ldi, s => execLdi s
  | .cpi, s => execCpi s
  | .ini, s => execIni s
  | .outi, s => execOuti s
  | .ldd, s => execLdd s
  | .cpd, s => execCpd s
  | .ind, s => execInd s
  | .outd, s => execOutd s
  | .ldir, s => execLdir s
  | .cpir, s => execCpir s
  | .inir, s => execInir s
  | .otir, s => execOtir s
  | .lddr, s => execLddr s
  | .cpdr, s => execCpdr s
  | .indr, s => execIndr s
  | .otdr, s => execOtdr s
  | .undefinedEd op, s => execUndefinedEd op s
  | .addXyRp xy p, s => execAddXyRp xy p s
  | .ldXyNn xy nn, s => execLdXyNn xy nn s
  | .ldMemNnXy xy nn, s => execLdMemNnXy xy nn s
  | .incXy xy, s => execIncXy xy s
  | .incXyHalf xy k, s => execIncXyHalf xy k s
  | .decXyHalf xy k, s => execDecXyHalf xy k s
  | .ldXyHalfN xy k n, s => execLdXyHalfN xy k n s
  | .ldXyMemNn xy nn, s => execLdXyMemNn xy nn s
  | .decXy xy, s => execDecXy xy s
  | .incXyd xy d, s => execIncXyd xy d s
  | .decXyd xy d, s => execDecXyd xy d s
  | .ldXydN xy d n, s => execLdXydN xy d n s
  | .ldRXyd xy r d, s => execLdRXyd xy r d s
  | .ldXydR xy d r, s => execLdXydR xy d r s
  | .ldRRXy xy r q, s => execLdRRXy xy r q s
  | .addXyd xy d, s => execAddXyd xy d s
  | .addXyHalf xy k, s => execAddXyHalf xy k s
  | .adcXyd xy d, s => execAdcXyd xy d s
  | .adcXyHalf xy k, s => execAdcXyHalf xy k s
  | .subXyd xy d, s => execSubXyd xy d s
  | .subXyHalf xy k, s => execSubXyHalf xy k s
  | .sbcXyd xy d, s => execSbcXyd xy d s
  | .sbcXyHalf xy k, s => execSbcXyHalf xy k s
  | .andXyd xy d, s => execAndXyd xy d s
  | .andXyHalf xy k, s => execAndXyHalf xy k s
  | .xorXyd xy d, s => execXorXyd xy d s
  | .xorXyHalf xy k, s => execXorXyHalf xy k s
  | .orXyd xy d, s => execOrXyd xy d s
  | .orXyHalf xy k, s => execOrXyHalf xy k s
  | .cpXyd xy d, s => execCpXyd xy d s
  | .cpXyHalf xy k, s => execCpXyHalf xy k s
  | .popXy xy, s => execPopXy xy s
  | .exSpXy xy, s => execExSpXy xy s
  | .pushXy xy, s => execPushXy xy s
  | .jpXy xy, s => execJpXy xy s
  | .ldSpXy xy, s => execLdSpXy xy s
  | .xpMain xy i, s => runAfterXy i (s.fetchedXy xy)
  | .xpEd xy i, s => runAfterXy i (s.fetchedXy xy)
  | .xpXp xy i, s => runAfterXy i (s.fetchedXy xy)
  | .rlcXyd xy d, s => execRlcXyd xy d s
  | .rlcXydR xy d r, s => execRlcXydR xy d r s
  | .rrcXyd xy d, s => execRrcXyd xy d s
  | .rrcXydR xy d r, s => execRrcXydR xy d r s
  | .rlXyd xy d, s => execRlXyd xy d s
  | .rlXydR xy d r, s => execRlXydR xy d r s
  | .rrXyd xy d, s => execRrXyd xy d s
  | .rrXydR xy d r, s => execRrXydR xy d r s
  | .slaXyd xy d, s => execSlaXyd xy d s
  | .slaXydR xy d r, s => execSlaXydR xy d r s
  | .sraXyd xy d, s => execSraXyd xy d s
  | .sraXydR xy d r, s => execSraXydR xy d r s
  | .sllXyd xy d, s => execSllXyd xy d s
  | .sllXydR xy d r, s => execSllXydR xy d r s
  | .srlXyd xy d, s => execSrlXyd xy d s
  | .srlXydR xy d r, s => execSrlXydR xy d r s
  | .bitXyd xy d y z, s => execBitXyd xy d y z s
  | .resXyd xy d y, s => execResXyd xy d y s
  | .resXydR xy d y r, s => execResXydR xy d y r s
  | .setXyd xy d y, s => execSetXyd xy d y s
  | .setXydR xy d y r, s => execSetXydR xy d y r s

/-- An index prefix in front of a main-table opcode it does not alter (R363). -/
def execXpMain (xy : Xy) (i : Instr) (s : State) : Result := runAfterXy i (s.fetchedXy xy)

/-- An index prefix in front of an ED instruction (R107). -/
def execXpEd (xy : Xy) (i : Instr) (s : State) : Result := runAfterXy i (s.fetchedXy xy)

/-- An index prefix in front of another one (R103). -/
def execXpXp (xy : Xy) (i : Instr) (s : State) : Result := runAfterXy i (s.fetchedXy xy)

end Sys2Proof.Machine
end

