-- ==== Sys2Proof/Machine/Dispatch.lean ====
section
/-! DEFINITION. Dispatch: one arm per constructor of Instr, each a direct call of that instruction's own meaning. -/

namespace Sys2Proof.Machine

def exec (i : Instr) (s : State) : Host.Outcome State Fault Refusal :=
  match i with
  | .nop => Sys2Proof.Machine.execNop s
  | .exAfAf => Sys2Proof.Machine.execExAfAf s
  | .djnz e => Sys2Proof.Machine.execDjnz e s
  | .jr e => Sys2Proof.Machine.execJr e s
  | .jrNz e => Sys2Proof.Machine.execJrNz e s
  | .jrZ e => Sys2Proof.Machine.execJrZ e s
  | .jrNc e => Sys2Proof.Machine.execJrNc e s
  | .jrC e => Sys2Proof.Machine.execJrC e s
  | .ldRpNn p nn => Sys2Proof.Machine.execLdRpNn p nn s
  | .addHlRp p => Sys2Proof.Machine.execAddHlRp p s
  | .ldMemBcA => Sys2Proof.Machine.execLdMemBcA s
  | .ldMemDeA => Sys2Proof.Machine.execLdMemDeA s
  | .ldMemNnHl nn => Sys2Proof.Machine.execLdMemNnHl nn s
  | .ldMemNnA nn => Sys2Proof.Machine.execLdMemNnA nn s
  | .ldAMemBc => Sys2Proof.Machine.execLdAMemBc s
  | .ldAMemDe => Sys2Proof.Machine.execLdAMemDe s
  | .ldHlMemNn nn => Sys2Proof.Machine.execLdHlMemNn nn s
  | .ldAMemNn nn => Sys2Proof.Machine.execLdAMemNn nn s
  | .incRp p => Sys2Proof.Machine.execIncRp p s
  | .decRp p => Sys2Proof.Machine.execDecRp p s
  | .incR r => Sys2Proof.Machine.execIncR r s
  | .incMemHl => Sys2Proof.Machine.execIncMemHl s
  | .decR r => Sys2Proof.Machine.execDecR r s
  | .decMemHl => Sys2Proof.Machine.execDecMemHl s
  | .ldRN r n => Sys2Proof.Machine.execLdRN r n s
  | .ldMemHlN n => Sys2Proof.Machine.execLdMemHlN n s
  | .rlca => Sys2Proof.Machine.execRlca s
  | .rrca => Sys2Proof.Machine.execRrca s
  | .rla => Sys2Proof.Machine.execRla s
  | .rra => Sys2Proof.Machine.execRra s
  | .daa => Sys2Proof.Machine.execDaa s
  | .cpl => Sys2Proof.Machine.execCpl s
  | .scf => Sys2Proof.Machine.execScf s
  | .ccf => Sys2Proof.Machine.execCcf s
  | .ldRR r q => Sys2Proof.Machine.execLdRR r q s
  | .ldRMemHl r => Sys2Proof.Machine.execLdRMemHl r s
  | .ldMemHlR r => Sys2Proof.Machine.execLdMemHlR r s
  | .halt => Sys2Proof.Machine.execHalt s
  | .addR r => Sys2Proof.Machine.execAddR r s
  | .addMemHl => Sys2Proof.Machine.execAddMemHl s
  | .addN n => Sys2Proof.Machine.execAddN n s
  | .adcR r => Sys2Proof.Machine.execAdcR r s
  | .adcMemHl => Sys2Proof.Machine.execAdcMemHl s
  | .adcN n => Sys2Proof.Machine.execAdcN n s
  | .subR r => Sys2Proof.Machine.execSubR r s
  | .subMemHl => Sys2Proof.Machine.execSubMemHl s
  | .subN n => Sys2Proof.Machine.execSubN n s
  | .sbcR r => Sys2Proof.Machine.execSbcR r s
  | .sbcMemHl => Sys2Proof.Machine.execSbcMemHl s
  | .sbcN n => Sys2Proof.Machine.execSbcN n s
  | .andR r => Sys2Proof.Machine.execAndR r s
  | .andMemHl => Sys2Proof.Machine.execAndMemHl s
  | .andN n => Sys2Proof.Machine.execAndN n s
  | .xorR r => Sys2Proof.Machine.execXorR r s
  | .xorMemHl => Sys2Proof.Machine.execXorMemHl s
  | .xorN n => Sys2Proof.Machine.execXorN n s
  | .orR r => Sys2Proof.Machine.execOrR r s
  | .orMemHl => Sys2Proof.Machine.execOrMemHl s
  | .orN n => Sys2Proof.Machine.execOrN n s
  | .cpR r => Sys2Proof.Machine.execCpR r s
  | .cpMemHl => Sys2Proof.Machine.execCpMemHl s
  | .cpN n => Sys2Proof.Machine.execCpN n s
  | .retCc cc => Sys2Proof.Machine.execRetCc cc s
  | .popRp2 p => Sys2Proof.Machine.execPopRp2 p s
  | .ret => Sys2Proof.Machine.execRet s
  | .exx => Sys2Proof.Machine.execExx s
  | .jpHl => Sys2Proof.Machine.execJpHl s
  | .ldSpHl => Sys2Proof.Machine.execLdSpHl s
  | .jpCcNn cc nn => Sys2Proof.Machine.execJpCcNn cc nn s
  | .jpNn nn => Sys2Proof.Machine.execJpNn nn s
  | .outNA n => Sys2Proof.Machine.execOutNA n s
  | .inAN n => Sys2Proof.Machine.execInAN n s
  | .exSpHl => Sys2Proof.Machine.execExSpHl s
  | .exDeHl => Sys2Proof.Machine.execExDeHl s
  | .di => Sys2Proof.Machine.execDi s
  | .ei => Sys2Proof.Machine.execEi s
  | .callCcNn cc nn => Sys2Proof.Machine.execCallCcNn cc nn s
  | .pushRp2 p => Sys2Proof.Machine.execPushRp2 p s
  | .callNn nn => Sys2Proof.Machine.execCallNn nn s
  | .rst y => Sys2Proof.Machine.execRst y s
  | .prefixCb => Sys2Proof.Machine.execPrefixCb s
  | .prefixEd => Sys2Proof.Machine.execPrefixEd s
  | .prefixXy xy => Sys2Proof.Machine.execPrefixXy xy s
  | .rlcR r => Sys2Proof.Machine.execRlcR r s
  | .rlcMemHl => Sys2Proof.Machine.execRlcMemHl s
  | .rrcR r => Sys2Proof.Machine.execRrcR r s
  | .rrcMemHl => Sys2Proof.Machine.execRrcMemHl s
  | .rlR r => Sys2Proof.Machine.execRlR r s
  | .rlMemHl => Sys2Proof.Machine.execRlMemHl s
  | .rrR r => Sys2Proof.Machine.execRrR r s
  | .rrMemHl => Sys2Proof.Machine.execRrMemHl s
  | .slaR r => Sys2Proof.Machine.execSlaR r s
  | .slaMemHl => Sys2Proof.Machine.execSlaMemHl s
  | .sraR r => Sys2Proof.Machine.execSraR r s
  | .sraMemHl => Sys2Proof.Machine.execSraMemHl s
  | .sllR r => Sys2Proof.Machine.execSllR r s
  | .sllMemHl => Sys2Proof.Machine.execSllMemHl s
  | .srlR r => Sys2Proof.Machine.execSrlR r s
  | .srlMemHl => Sys2Proof.Machine.execSrlMemHl s
  | .bitR y r => Sys2Proof.Machine.execBitR y r s
  | .bitMemHl y => Sys2Proof.Machine.execBitMemHl y s
  | .resR y r => Sys2Proof.Machine.execResR y r s
  | .resMemHl y => Sys2Proof.Machine.execResMemHl y s
  | .setR y r => Sys2Proof.Machine.execSetR y r s
  | .setMemHl y => Sys2Proof.Machine.execSetMemHl y s
  | .inRC r => Sys2Proof.Machine.execInRC r s
  | .inFC => Sys2Proof.Machine.execInFC s
  | .outCR r => Sys2Proof.Machine.execOutCR r s
  | .outC0 => Sys2Proof.Machine.execOutC0 s
  | .sbcHlRp p => Sys2Proof.Machine.execSbcHlRp p s
  | .adcHlRp p => Sys2Proof.Machine.execAdcHlRp p s
  | .ldMemNnRp p nn => Sys2Proof.Machine.execLdMemNnRp p nn s
  | .ldRpMemNn p nn => Sys2Proof.Machine.execLdRpMemNn p nn s
  | .neg y => Sys2Proof.Machine.execNeg y s
  | .reti => Sys2Proof.Machine.execReti s
  | .retn y => Sys2Proof.Machine.execRetn y s
  | .im0 => Sys2Proof.Machine.execIm0 s
  | .im1 => Sys2Proof.Machine.execIm1 s
  | .im2 => Sys2Proof.Machine.execIm2 s
  | .ldIA => Sys2Proof.Machine.execLdIA s
  | .ldRefreshA => Sys2Proof.Machine.execLdRefreshA s
  | .ldAI => Sys2Proof.Machine.execLdAI s
  | .ldARefresh => Sys2Proof.Machine.execLdARefresh s
  | .rrd => Sys2Proof.Machine.execRrd s
  | .rld => Sys2Proof.Machine.execRld s
  | .ldi => Sys2Proof.Machine.execLdi s
  | .cpi => Sys2Proof.Machine.execCpi s
  | .ini => Sys2Proof.Machine.execIni s
  | .outi => Sys2Proof.Machine.execOuti s
  | .ldd => Sys2Proof.Machine.execLdd s
  | .cpd => Sys2Proof.Machine.execCpd s
  | .ind => Sys2Proof.Machine.execInd s
  | .outd => Sys2Proof.Machine.execOutd s
  | .ldir => Sys2Proof.Machine.execLdir s
  | .cpir => Sys2Proof.Machine.execCpir s
  | .inir => Sys2Proof.Machine.execInir s
  | .otir => Sys2Proof.Machine.execOtir s
  | .lddr => Sys2Proof.Machine.execLddr s
  | .cpdr => Sys2Proof.Machine.execCpdr s
  | .indr => Sys2Proof.Machine.execIndr s
  | .otdr => Sys2Proof.Machine.execOtdr s
  | .undefinedEd op => Sys2Proof.Machine.execUndefinedEd op s
  | .addXyRp xy p => Sys2Proof.Machine.execAddXyRp xy p s
  | .ldXyNn xy nn => Sys2Proof.Machine.execLdXyNn xy nn s
  | .ldMemNnXy xy nn => Sys2Proof.Machine.execLdMemNnXy xy nn s
  | .incXy xy => Sys2Proof.Machine.execIncXy xy s
  | .incXyHalf xy k => Sys2Proof.Machine.execIncXyHalf xy k s
  | .decXyHalf xy k => Sys2Proof.Machine.execDecXyHalf xy k s
  | .ldXyHalfN xy k n => Sys2Proof.Machine.execLdXyHalfN xy k n s
  | .ldXyMemNn xy nn => Sys2Proof.Machine.execLdXyMemNn xy nn s
  | .decXy xy => Sys2Proof.Machine.execDecXy xy s
  | .incXyd xy d => Sys2Proof.Machine.execIncXyd xy d s
  | .decXyd xy d => Sys2Proof.Machine.execDecXyd xy d s
  | .ldXydN xy d n => Sys2Proof.Machine.execLdXydN xy d n s
  | .ldRXyd xy r d => Sys2Proof.Machine.execLdRXyd xy r d s
  | .ldXydR xy d r => Sys2Proof.Machine.execLdXydR xy d r s
  | .ldRRXy xy r q => Sys2Proof.Machine.execLdRRXy xy r q s
  | .addXyd xy d => Sys2Proof.Machine.execAddXyd xy d s
  | .addXyHalf xy k => Sys2Proof.Machine.execAddXyHalf xy k s
  | .adcXyd xy d => Sys2Proof.Machine.execAdcXyd xy d s
  | .adcXyHalf xy k => Sys2Proof.Machine.execAdcXyHalf xy k s
  | .subXyd xy d => Sys2Proof.Machine.execSubXyd xy d s
  | .subXyHalf xy k => Sys2Proof.Machine.execSubXyHalf xy k s
  | .sbcXyd xy d => Sys2Proof.Machine.execSbcXyd xy d s
  | .sbcXyHalf xy k => Sys2Proof.Machine.execSbcXyHalf xy k s
  | .andXyd xy d => Sys2Proof.Machine.execAndXyd xy d s
  | .andXyHalf xy k => Sys2Proof.Machine.execAndXyHalf xy k s
  | .xorXyd xy d => Sys2Proof.Machine.execXorXyd xy d s
  | .xorXyHalf xy k => Sys2Proof.Machine.execXorXyHalf xy k s
  | .orXyd xy d => Sys2Proof.Machine.execOrXyd xy d s
  | .orXyHalf xy k => Sys2Proof.Machine.execOrXyHalf xy k s
  | .cpXyd xy d => Sys2Proof.Machine.execCpXyd xy d s
  | .cpXyHalf xy k => Sys2Proof.Machine.execCpXyHalf xy k s
  | .popXy xy => Sys2Proof.Machine.execPopXy xy s
  | .exSpXy xy => Sys2Proof.Machine.execExSpXy xy s
  | .pushXy xy => Sys2Proof.Machine.execPushXy xy s
  | .jpXy xy => Sys2Proof.Machine.execJpXy xy s
  | .ldSpXy xy => Sys2Proof.Machine.execLdSpXy xy s
  | .xpMain xy j => Sys2Proof.Machine.execXpMain xy j s
  | .xpEd xy j => Sys2Proof.Machine.execXpEd xy j s
  | .xpXp xy j => Sys2Proof.Machine.execXpXp xy j s
  | .rlcXyd xy d => Sys2Proof.Machine.execRlcXyd xy d s
  | .rlcXydR xy d r => Sys2Proof.Machine.execRlcXydR xy d r s
  | .rrcXyd xy d => Sys2Proof.Machine.execRrcXyd xy d s
  | .rrcXydR xy d r => Sys2Proof.Machine.execRrcXydR xy d r s
  | .rlXyd xy d => Sys2Proof.Machine.execRlXyd xy d s
  | .rlXydR xy d r => Sys2Proof.Machine.execRlXydR xy d r s
  | .rrXyd xy d => Sys2Proof.Machine.execRrXyd xy d s
  | .rrXydR xy d r => Sys2Proof.Machine.execRrXydR xy d r s
  | .slaXyd xy d => Sys2Proof.Machine.execSlaXyd xy d s
  | .slaXydR xy d r => Sys2Proof.Machine.execSlaXydR xy d r s
  | .sraXyd xy d => Sys2Proof.Machine.execSraXyd xy d s
  | .sraXydR xy d r => Sys2Proof.Machine.execSraXydR xy d r s
  | .sllXyd xy d => Sys2Proof.Machine.execSllXyd xy d s
  | .sllXydR xy d r => Sys2Proof.Machine.execSllXydR xy d r s
  | .srlXyd xy d => Sys2Proof.Machine.execSrlXyd xy d s
  | .srlXydR xy d r => Sys2Proof.Machine.execSrlXydR xy d r s
  | .bitXyd xy d y z => Sys2Proof.Machine.execBitXyd xy d y z s
  | .resXyd xy d y => Sys2Proof.Machine.execResXyd xy d y s
  | .resXydR xy d y r => Sys2Proof.Machine.execResXydR xy d y r s
  | .setXyd xy d y => Sys2Proof.Machine.execSetXyd xy d y s
  | .setXydR xy d y r => Sys2Proof.Machine.execSetXydR xy d y r s

end Sys2Proof.Machine
end

