-- ==== Sys2Proof/Machine/TapePlay.lean ====
section
/-! DEFINITION. TapePlay: the tape waveform and its playback (spec/52_tape_playback.md rules R465, R470 .. R487). -/

namespace Sys2Proof.Machine

/-! ## Block list to waveform (rule R465) -/

/-- Pilot pulses of a block: the header count only when its first byte is 0x00. -/
def Block.pilotCount (b : Block) : Nat :=
  match b.data with
  | v :: _ => if v = 0#8 then Config.pilotHeader else Config.pilotData
  | [] => Config.pilotData

/-- The two equal pulses of one bit. -/
def bitPulses (one : Bool) : List Nat :=
  let d := if one then Config.bit1T else Config.bit0T
  [d, d]

/-- The sixteen pulses of a byte, most significant bit first. -/
def bytePulses (v : Byte) : List Nat :=
  [7, 6, 5, 4, 3, 2, 1, 0].flatMap (fun i => bitPulses (v.getLsbD i))

/-- The pulses of one block, the first pilot pulse carrying the pause before it. -/
def Block.pulses (ext : Nat) (b : Block) : List Nat :=
  (Config.pilotT + ext) :: List.replicate (b.pilotCount - 1) Config.pilotT ++
    [Config.sync1T, Config.sync2T] ++ b.data.flatMap bytePulses

/-- The pulses of a block list; the last block's pause is a pulse of its own. -/
def expandBlocks : Nat → List Block → List Nat
  | ext, [] => if 0 < ext then [ext] else []
  | ext, b :: rest => b.pulses ext ++ expandBlocks (b.pauseMs.toNat * Config.tstatesPerMs) rest

/-- An exact duration of 1 or more as the 32-bit number a waveform holds (rule R44): itself where it fits, which is always so
for the blocks of a TAP or TZX file (rule R465).  What a longer one, which rule R464 can ask for, is kept as is a free value
of 1 or more (log 21). -/
def pulseOf (d : Nat) : U32 :=
  if d < 2 ^ 32 then BitVec.ofNat 32 d
  else if Config.freeDuration d = 0#32 then 1#32
  else Config.freeDuration d

/-- The waveform of a TAP or TZX block list. -/
def blocksWaveform (origin : Origin) (blocks : List Block) : Waveform :=
  { initialLevel := false, pulses := (expandBlocks 0 blocks).map pulseOf, sampleRate := none, origin := origin, blocks := blocks }

/-! ## Play control (rules R470 .. R479) -/

/-- The durations of the pulses in T-states. -/
def Waveform.durations (w : Waveform) : List Nat := w.pulses.map BitVec.toNat

/-- `cum(k)`: T-states of tape before pulse `k`. -/
def Waveform.cum (w : Waveform) (k : Nat) : Nat := (w.durations.take k).sum

/-- The level of pulse `k`: the initial level, alternating. -/
def Waveform.levelAt (w : Waveform) (k : Nat) : Bool := w.initialLevel ^^ decide (k % 2 = 1)

/-- `start(now)` (rule R470). -/
def Tape.start (t : Tape) (now : Nat) : Tape :=
  match t.source with
  | none => t
  | some w =>
    let t1 : Tape :=
      { t with cursor := 0, earLevel := w.initialLevel, done := false, remaining := 0, position := 0 }
    match w.durations with
    | [] => { t1 with playing := false, done := true }
    | p :: _ => { t1 with nextTransition := now + p, playing := true }

/-- The transitions due at `now`, at most `fuel` of them (rule R480's loop; each one moves the cursor). -/
def Tape.advance (w : Waveform) (now : Nat) : Nat → Tape → Tape
  | 0, t => t
  | fuel + 1, t =>
    if t.playing && decide (t.nextTransition ≤ now) then
      let t1 : Tape := { t with earLevel := !t.earLevel, cursor := t.cursor + 1 }
      if w.pulses.length ≤ t1.cursor then { t1 with playing := false, done := true }
      else Tape.advance w now fuel { t1 with nextTransition := t.nextTransition + w.durations.getD t1.cursor 0 }
    else t

/-- `update(now)` (rule R480). -/
def Tape.update (t : Tape) (now : Nat) : Tape :=
  match t.source with
  | none => t
  | some w =>
    let t1 := Tape.advance w now (w.pulses.length + 1) t
    if t1.playing then { t1 with position := w.cum (t1.cursor + 1) - (t1.nextTransition - now) }
    else if t1.done then { t1 with position := w.cum w.pulses.length }
    else t1

/-- `pause(now)` (rule R471). -/
def Tape.pause (t : Tape) (now : Nat) : Tape :=
  match t.source with
  | none => t
  | some _ =>
    if t.playing then
      let t1 := t.update now
      if t1.playing then { t1 with remaining := t1.nextTransition - now, playing := false } else t1
    else t

/-- `resume(now)` (rule R472). -/
def Tape.resume (t : Tape) (now : Nat) : Tape :=
  match t.source with
  | none => t
  | some _ =>
    if !t.playing && !t.done && decide (0 < t.remaining) then
      { t with nextTransition := now + t.remaining, remaining := 0, playing := true }
    else t

/-- `rewind()` (rule R478). -/
def Tape.rewind (t : Tape) : Tape :=
  match t.source with
  | none => t
  | some w =>
    { t with playing := false, done := false, cursor := 0, earLevel := w.initialLevel, remaining := 0, position := 0 }

/-- The pulse that contains tape time `t`, with the time at which it ends: the first `k ≥ from` whose end is after `t`.
`before` is the time before pulse `k`. -/
def findPulse (t : Nat) : Nat → Nat → List Nat → Option (Nat × Nat)
  | _, _, [] => none
  | k, before, p :: rest => if t < before + p then some (k, before + p) else findPulse t (k + 1) (before + p) rest

/-- `seek(t)` (rule R479): none when it is refused (a source that is not WAV). -/
def Tape.seek (t : Tape) (at_ : Nat) : Option Tape :=
  match t.source with
  | none => some t
  | some w =>
    match w.origin with
    | .wav =>
      match findPulse at_ 0 0 w.durations with
      | none =>
        some { t with cursor := w.pulses.length, playing := false, done := true, remaining := 0,
                      earLevel := w.levelAt w.pulses.length, position := w.cum w.pulses.length }
      | some (k, finish) =>
        some { t with cursor := k, earLevel := w.levelAt k, remaining := finish - at_, position := at_,
                      done := false, playing := false }
    | _ => none

/-! ## Phase (rule R484) -/

/-- `phase`: a status readout (rule R484); no rule reads it. -/
inductive Phase where
  | idle | pilot | sync1 | sync2 | data | pause | done
  deriving DecidableEq, Repr

/-- The phase of pulse `j` of a block list, `ext` the pause the first block carries, `left` the T-states left in it. -/
def blockPhase (left : Nat) : Nat → List Block → Nat → Phase
  | _, [], _ => .pause
  | ext, b :: rest, j =>
    if j < b.pilotCount + 2 + 16 * b.data.length then
      if j = 0 ∧ 0 < ext ∧ Config.pilotT < left then .pause
      else if j < b.pilotCount then .pilot
      else if j = b.pilotCount then .sync1
      else if j = b.pilotCount + 1 then .sync2
      else .data
    else blockPhase left (b.pauseMs.toNat * Config.tstatesPerMs) rest (j - (b.pilotCount + 2 + 16 * b.data.length))

/-- `phase(now)` (rule R484). -/
def Tape.phase (t : Tape) (now : Nat) : Phase :=
  if t.done then .done
  else if !t.playing && decide (t.remaining = 0) then .idle
  else
    match t.source with
    | none => .idle
    | some w =>
      match w.origin with
      | .wav => .data
      | _ => blockPhase (if t.playing then t.nextTransition - now else t.remaining) 0 w.blocks t.cursor

end Sys2Proof.Machine
end

