-- ==== Sys2Proof/Machine/TapeFile.lean ====
section
/-! DEFINITION. TapeFile: reading TAP, TZX and WAV files into a waveform (spec/52_tape_playback.md rules R460 .. R464). -/

namespace Sys2Proof.Machine

/-- The one failure of a malformed file (rule R550). -/
def parseError : HostError := .tapeParse none

/-! ## TAP (rule R461) -/

/-- The records of a TAP file; `fuel` bounds their number (each takes at least two bytes). -/
def tapRecords : Nat → List Byte → Except HostError (List Block)
  | _, [] => .ok []
  | 0, _ => .error parseError
  | fuel + 1, lo :: hi :: rest =>
    let n := leNat [lo, hi]
    if rest.length < n then .error parseError
    else
      match tapRecords fuel (rest.drop n) with
      | .ok bs => .ok ({ data := rest.take n, pauseMs := BitVec.ofNat 32 Config.tapDefaultPauseMs } :: bs)
      | .error e => .error e
  | _ + 1, [_] => .error parseError

/-- A TAP file's block list. -/
def parseTap (file : List Byte) : Except HostError (List Block) := tapRecords (file.length + 1) file

/-! ## TZX (rule R462) -/

/-- The eight signature bytes. -/
def tzxSignature : List Byte := [0x5A#8, 0x58#8, 0x54#8, 0x61#8, 0x70#8, 0x65#8, 0x21#8, 0x1A#8]

/-- The blocks from file offset `at_` on; any ID but 0x10 fails with the ID and its offset (decision D35). -/
def tzxBlocks : Nat → Nat → List Byte → Except HostError (List Block)
  | _, _, [] => .ok []
  | 0, _, _ => .error parseError
  | fuel + 1, at_, id :: rest =>
    if id = 0x10#8 then
      match rest with
      | p0 :: p1 :: l0 :: l1 :: body =>
        let n := leNat [l0, l1]
        if body.length < n then .error parseError
        else
          match tzxBlocks fuel (at_ + 5 + n) (body.drop n) with
          | .ok bs => .ok ({ data := body.take n, pauseMs := BitVec.ofNat 32 (leNat [p0, p1]) } :: bs)
          | .error e => .error e
      | _ => .error parseError
    else .error (.tapeParse (some (id, at_)))

/-- A TZX file's block list; the two version bytes are not checked. -/
def parseTzx (file : List Byte) : Except HostError (List Block) :=
  if file.length < 10 ∨ file.take 8 ≠ tzxSignature then .error parseError
  else tzxBlocks (file.length + 1) 10 (file.drop 10)

/-! ## WAV (rules R463, R464) -/

/-- The fields of a `fmt ` chunk (rule R463). -/
structure WavFormat where
  audioFormat : Nat
  channels : Nat
  sampleRate : Nat
  bits : Nat
  deriving DecidableEq, Repr

/-- A parsed WAV file: its format, its data chunk's bytes, the file offset of those bytes, and whether the data chunk is
the last one of the file. -/
structure WavFile where
  format : WavFormat
  data : List Byte
  dataOffset : Nat
  dataIsLast : Bool
  deriving DecidableEq, Repr

/-- The tags "RIFF", "WAVE", "fmt " and "data". -/
def tagRiff : List Byte := [0x52#8, 0x49#8, 0x46#8, 0x46#8]
def tagWave : List Byte := [0x57#8, 0x41#8, 0x56#8, 0x45#8]
def tagFmt : List Byte := [0x66#8, 0x6D#8, 0x74#8, 0x20#8]
def tagData : List Byte := [0x64#8, 0x61#8, 0x74#8, 0x61#8]

/-- The first sixteen bytes of a `fmt ` chunk. -/
def readWavFormat (c : List Byte) : WavFormat :=
  { audioFormat := leNat (c.take 2), channels := leNat ((c.drop 2).take 2),
    sampleRate := leNat ((c.drop 4).take 4), bits := leNat ((c.drop 14).take 2) }

/-- "PCM (format=1), mono, 8- or 16-bit", and a sample rate that is not 0. -/
def WavFormat.accepted (f : WavFormat) : Bool :=
  decide (f.audioFormat = 1) && decide (f.channels = 1) && (decide (f.bits = 8) || decide (f.bits = 16)) &&
    decide (f.sampleRate ≠ 0)

/-- The chunks from file offset `at_` on.  A chunk is its id, its size, that many bytes and a pad byte when the size is
odd (the pad is part of the chunk: log 15); one running past the end of the file fails.  `fmt ` must come before `data`
(decision D28), each once (log 15); other chunks are skipped. -/
def wavChunks : Nat → Nat → List Byte → Option WavFormat → Option WavFile → Except HostError WavFile
  | _, _, [], _, some w => .ok w
  | _, _, [], _, none => .error parseError
  | 0, _, _, _, _ => .error parseError
  | fuel + 1, at_, chunk, fmt, found =>
    let id := chunk.take 4
    let size := leNat ((chunk.drop 4).take 4)
    let padded := size + size % 2
    let body := chunk.drop 8
    if chunk.length < 8 ∨ body.length < padded then .error parseError
    else
      let data := body.take size
      let rest := body.drop padded
      let next := at_ + 8 + padded
      if id = tagFmt then
        if fmt.isSome ∨ size < 16 ∨ (readWavFormat data).accepted = false then .error parseError
        else wavChunks fuel next rest (some (readWavFormat data)) found
      else if id = tagData then
        match fmt, found with
        | some f, none =>
          wavChunks fuel next rest fmt
            (some { format := f, data := data, dataOffset := at_ + 8, dataIsLast := rest.isEmpty })
        | _, _ => .error parseError
      else wavChunks fuel next rest fmt found

/-- A WAV file (rule R463). -/
def parseWav (file : List Byte) : Except HostError WavFile :=
  if file.length < 12 ∨ file.take 4 ≠ tagRiff ∨ (file.drop 8).take 4 ≠ tagWave then .error parseError
  else wavChunks (file.length + 1) 12 (file.drop 12) none none

/-- The signs of 16-bit samples: 1 when not negative; an odd byte at the end is ignored (rule R464). -/
def signs16 : List Byte → List Bool
  | _ :: hi :: rest => (!hi.getLsbD 7) :: signs16 rest
  | _ => []

/-- The sign of every sample of a WAV file (rule R464). -/
def WavFile.signs (w : WavFile) : List Bool :=
  if w.format.bits = 16 then signs16 w.data else w.data.map (fun v => decide (128 ≤ v.toNat))

/-- The duration of a run of `n` samples: rounded half up, at least 1 (rule R464). -/
def runPulse (rate n : Nat) : Nat := max 1 ((2 * n * Config.cpuHz + rate) / (2 * rate))

/-- The pulses of the maximal runs of equal signs, `n` samples of sign `lvl` counted so far. -/
def runPulses (rate : Nat) : Bool → Nat → List Bool → List Nat
  | _, n, [] => [runPulse rate n]
  | lvl, n, s :: rest => if s = lvl then runPulses rate lvl (n + 1) rest else runPulse rate n :: runPulses rate s 1 rest

/-- WAV to waveform (rule R464). -/
def WavFile.waveform (w : WavFile) : Waveform :=
  match w.signs with
  | [] =>
    { initialLevel := false, pulses := [], sampleRate := some w.format.sampleRate, origin := .wav, blocks := [] }
  | s :: rest =>
    { initialLevel := s, pulses := (runPulses w.format.sampleRate s 1 rest).map pulseOf,
      sampleRate := some w.format.sampleRate, origin := .wav, blocks := [] }

/-! ## Loading (rule R460) -/

/-- The waveform of a file in a given format. -/
def parseTape (format : TapeFormat) (file : List Byte) : Except HostError (Option Waveform) :=
  match format with
  | .none => .ok none
  | .tap =>
    match parseTap file with
    | .ok bs => .ok (some (blocksWaveform .tap bs))
    | .error e => .error e
  | .tzx =>
    match parseTzx file with
    | .ok bs => .ok (some (blocksWaveform .tzx bs))
    | .error e => .error e
  | .wav =>
    match parseWav file with
    | .ok w => .ok (some w.waveform)
    | .error e => .error e

/-- Load the tape the configuration names; a file that cannot be read is `TapeIo`. -/
def loadTape (config : MachineConfig) (disk : Disk) : Except HostError (Option Waveform) :=
  match config.tapeInputFormat with
  | .none => .ok none
  | format =>
    match disk.tapeInput with
    | some file => if disk.readable then parseTape format file else .error .tapeIo
    | none => .error .tapeIo

end Sys2Proof.Machine
end

