-- ==== Sys2Proof/Machine/TapeRecord.lean ====
section
/-! DEFINITION. TapeRecord: the tape recorder (spec/53_tape_recorder.md): sessions, MIC capture, rendering, the TAP pulse
decoder, and the files it writes. -/

namespace Sys2Proof.Machine

/-! ## The TAP pulse decoder (rules R509 .. R513) -/

/-- `tol(ref)` (rule R509). -/
def tol (ref : Nat) : Nat := max (ref / 4) 200

/-- `|d - ref| ≤ bound`. -/
def within (d ref bound : Nat) : Bool := decide (d ≤ ref + bound) && decide (ref ≤ d + bound)

/-- `near(d, ref)` (rule R509). -/
def near (d ref : Nat) : Bool := within d ref (tol ref)

/-- The bit of a pair of half-pulses, with the tie-break on their sum (rule R512); none fails the block. -/
def pairBit (a b : Nat) : Option Bool :=
  if near a Config.bit0T && near b Config.bit0T then some false
  else if near a Config.bit1T && near b Config.bit1T then some true
  else if within (a + b) (2 * Config.bit0T) (2 * tol Config.bit0T) then some false
  else if within (a + b) (2 * Config.bit1T) (2 * tol Config.bit1T) then some true
  else none

/-- The bits of a list of pulse pairs. -/
def pairBits : List Nat → Option (List Bool)
  | a :: b :: rest =>
    match pairBit a b, pairBits rest with
    | some x, some xs => some (x :: xs)
    | _, _ => none
  | _ => some []

/-- Pack bits into bytes, most significant first; bits short of a byte are dropped. -/
def packBytes : List Bool → List Byte
  | b7 :: b6 :: b5 :: b4 :: b3 :: b2 :: b1 :: b0 :: rest =>
    BitVec.ofNat 8 (128 * bitNat b7 + 64 * bitNat b6 + 32 * bitNat b5 + 16 * bitNat b4 +
      8 * bitNat b3 + 4 * bitNat b2 + 2 * bitNat b1 + bitNat b0) :: packBytes rest
  | _ => []

/-- `Decode(p)` (rules R510 .. R513): skip to the pilot, at least 100 pilot pulses, the sync pair, then the data pulses
trimmed to a multiple of 16. -/
def decodePulses (p : List Nat) : Option (List Byte) :=
  let isPilot := fun d => near d Config.pilotT
  let fromPilot := p.dropWhile (fun d => !isPilot d)
  let pilot := fromPilot.takeWhile isPilot
  if pilot.length < Config.decMinPilot then none
  else
    match fromPilot.dropWhile isPilot with
    | a :: b :: data =>
      if near a Config.sync1T && near b Config.sync2T then
        let m := data.length - data.length % 16
        if m = 0 then none else (pairBits (data.take m)).map packBytes
      else none
    | _ => none

/-! ## Rendering (rule R507) -/

/-- `s(l)`. -/
def recSample (c : MachineConfig) (lvl : Bool) : Int := if lvl then c.recAmplitude else -c.recAmplitude

/-- `floor(d × REC_SAMPLE_RATE / CPU_HZ)`. -/
def samplesOf (c : MachineConfig) (d : Nat) : Nat := d * c.recSampleRate / Config.cpuHz

/-- `Render(level0, pulses)`: one run per pulse, levels alternating, each rounded down by itself. -/
def renderPulses (c : MachineConfig) : Bool → List Nat → List Int
  | _, [] => []
  | lvl, d :: rest => List.replicate (samplesOf c d) (recSample c lvl) ++ renderPulses c (!lvl) rest

/-! ## Capture (rules R504 .. R506) -/

/-- `RecorderMicEvent(t, l)` (rule R504). -/
def Recorder.micEvent (r : Recorder) (t : Nat) (l : Bool) : Recorder :=
  if !r.enabled then r
  else if !r.blockActive then
    { r with blockActive := true, blockStartLevel := l, lastLevel := l, lastTransitionT := t }
  else if l = r.lastLevel then r
  else { r with pendingPulses := r.pendingPulses ++ [t - r.lastTransitionT], lastLevel := l, lastTransitionT := t }

/-- Whether the open block is decoded when it is finalized: a TAP session, and at least 100 pulses (rule R506). -/
def Recorder.decodeTried (r : Recorder) : Bool :=
  decide (r.format = .tap) && decide (Config.recMinPulses ≤ r.pendingPulses.length)

/-- `Finalize(idle)` (rule R506); a block that cannot be decoded is dropped with a warning. -/
def Recorder.finalize (c : MachineConfig) (r : Recorder) (idle : Nat) : Recorder :=
  let audio := r.audioBuf ++ renderPulses c r.blockStartLevel r.pendingPulses ++
    List.replicate (samplesOf c idle) (recSample c r.lastLevel)
  let r1 : Recorder :=
    { r with audioBuf := audio, pendingPulses := [], blockActive := false, sessionDirty := true }
  if r.decodeTried then
    match decodePulses r.pendingPulses with
    | some bytes => { r1 with tapBlocks := r.tapBlocks ++ [{ data := bytes, pauseMs := 0#32 }] }
    | none => { r1 with warnings := r.warnings + 1 }
  else r1

/-- `RecorderUpdate(now, force)` (rule R505). -/
def Recorder.update (c : MachineConfig) (r : Recorder) (now : Nat) (force : Bool) : Recorder :=
  if r.enabled && r.blockActive && (force || decide (Config.recIdleTStates < now - r.lastTransitionT)) then
    r.finalize c (now - r.lastTransitionT)
  else r

/-! ## Sessions (rules R501 .. R503) -/

/-- An existing file this recorder can keep or extend (rule R503): 16-bit mono PCM at its own rate, `data` last. -/
def existingWav (c : MachineConfig) (file : List Byte) : Option WavFile :=
  match parseWav file with
  | .ok w =>
    if w.format.bits = 16 ∧ w.format.sampleRate = c.recSampleRate ∧ w.dataIsLast = true then some w else none
  | .error _ => none

/-- Samples in a WAV file's data chunk. -/
def WavFile.sampleCount (w : WavFile) : Nat := w.data.length / 2

/-- A session with nothing captured. -/
def Recorder.fresh (format : SessionFormat) (append : Bool) (existing : Option (List Byte)) (keep : Nat)
    (r : Recorder) : Recorder :=
  { r with enabled := true, format := format, append := append, blockActive := false, pendingPulses := [],
           audioBuf := [], tapBlocks := [], sessionDirty := false, wavExisting := existing, wavPrefixSamples := keep }

/-- `RecordStart(now)` (rule R501), `position` the playback head; refused while recording, and with format None (log 16). -/
def Recorder.start (c : MachineConfig) (disk : Disk) (position : Nat) (r : Recorder) : Except HostError Recorder :=
  if r.enabled then .error .tapeStateConflict
  else
    match c.recorderOutputFormat with
    | .none => .error .tapeStateConflict
    | .tap => .ok (r.fresh .tap false r.wavExisting r.wavPrefixSamples)
    | .wav =>
      match disk.recorderOutput with
      | none => .ok (r.fresh .wav false none 0)
      | some file =>
        if !disk.readable then .error .tapeIo
        else
          match existingWav c file with
          | some w => .ok (r.fresh .wav false (some file) (min w.sampleCount (samplesOf c position)))
          | none => .ok (r.fresh .wav false none 0)

/-- `RecordStartAppend(now)` (rule R502). -/
def Recorder.startAppend (c : MachineConfig) (disk : Disk) (r : Recorder) : Except HostError Recorder :=
  if r.enabled then .error .tapeStateConflict
  else
    match c.recorderOutputFormat with
    | .wav =>
      match disk.recorderOutput with
      | none => .ok (r.fresh .wav true none 0)
      | some file =>
        if !disk.readable then .error .tapeIo
        else
          match existingWav c file with
          | some w => .ok (r.fresh .wav true (some file) w.sampleCount)
          | none => .error .tapeStateConflict
    | _ => .error .tapeStateConflict

/-! ## The files written (rules R516 .. R519) -/

/-- TAP: u16 length and payload of each decoded block; one too long for the length field is skipped (rule R516). -/
def tapFile (blocks : List Block) : List Byte :=
  blocks.flatMap (fun b => if 65535 < b.data.length then [] else leBytes 2 b.data.length ++ b.data)

/-- An int16 sample, little-endian. -/
def sampleBytes (x : Int) : List Byte := leBytes 2 (BitVec.ofInt 16 x).toNat

/-- A u32 field of a WAV file, little-endian (rules R517, R519).
DESIGN CHOICE (log 24): the spec states nothing for a value that does not fit 32 bits; the field then holds a free value. -/
def u32Field (n : Nat) : List Byte := leBytes 4 (if n < 2 ^ 32 then n else (Config.freeField n).toNat)

/-- The 44-byte header for `d` data bytes (rule R517). -/
def wavHeader (rate d : Nat) : List Byte :=
  tagRiff ++ u32Field (36 + d) ++ tagWave ++ tagFmt ++ u32Field 16 ++ leBytes 2 1 ++ leBytes 2 1 ++
    u32Field rate ++ u32Field (rate * 2) ++ leBytes 2 2 ++ leBytes 2 16 ++ tagData ++ u32Field d

/-- WAV overwrite: header, kept prefix of the old samples, new samples (rule R518). -/
def wavOverwrite (c : MachineConfig) (old : List Byte) (keep : Nat) (audio : List Int) : List Byte :=
  let kept := old.take (2 * keep)
  wavHeader c.recSampleRate (2 * (keep + audio.length)) ++ kept ++ audio.flatMap sampleBytes

/-- Replace the bytes at an offset. -/
def patchBytes (file : List Byte) (offset : Nat) (bytes : List Byte) : List Byte :=
  file.take offset ++ bytes ++ file.drop (offset + bytes.length)

/-- WAV append: the new samples at the end, the RIFF and data sizes patched (rule R519). -/
def wavAppend (file : List Byte) (w : WavFile) (audio : List Int) : List Byte :=
  let grown := file ++ audio.flatMap sampleBytes
  let riff := patchBytes grown 4 (u32Field (grown.length - 8))
  patchBytes riff (w.dataOffset - 4) (u32Field (w.data.length + 2 * audio.length))

/-- What the session writes to its destination (rules R515 .. R519). -/
def Recorder.output (c : MachineConfig) (r : Recorder) : List Byte :=
  match r.format with
  | .wav =>
    match r.wavExisting with
    | none => wavOverwrite c [] 0 r.audioBuf
    | some file =>
      match existingWav c file with
      | none => wavOverwrite c [] 0 r.audioBuf
      | some w =>
        if r.append then wavAppend file w r.audioBuf
        else wavOverwrite c w.data r.wavPrefixSamples r.audioBuf
  | .tap => tapFile r.tapBlocks

/-- The session is over (rule R515). -/
def Recorder.ended (r : Recorder) : Recorder := { r with enabled := false, sessionDirty := false }

end Sys2Proof.Machine
end

