-- ==== Sys2Proof/Machine/MainLoop.lean ====
section
/-! DEFINITION. MainLoop: one step of the CPU (spec/30_encoding.md rule R102), `process_events` (spec/50_port_bus_ula.md
rule R409) and one iteration of the main loop (spec/54_main_loop_host.md rules R540 .. R545). -/

namespace Sys2Proof.Machine

/-! ## `Step()` (rule R102) -/

/-- The first lines of a step: the time cursor starts at the clock, and a pending EI takes effect (rules R31, R36). -/
def State.beginStep (s : State) : State :=
  { s with
    cursor := { tBase := s.clock, t := 0, start := s.cpu.pc, lastXy := none }
    cpu := if s.cpu.eiDelay then { s.cpu with iff1 := true, iff2 := true, eiDelay := false } else s.cpu }

/-- A halted step: no fetch, one `IncR()`, 4 T-states (rule R33). -/
def State.idle (s : State) : State :=
  { s with
    cpu := { s.cpu with r := incR s.cpu.r }
    cursor := { s.cursor with t := 4 } }

/-- `n` bytes from an address on, wrapping at 65,536 (rules R25, R64). -/
def fetchBytes (m : Memory) : Nat → Word → List Byte
  | 0, _ => []
  | n + 1, a => m.get a.toNat :: fetchBytes m n (a + 1#16)

/-- The bytes a step can ever look at: a whole memory of index prefixes and one instruction more. -/
def fetchLimit : Nat := 65540

/-- The instruction at PC; none when every byte is an index prefix (rule R103). -/
def State.fetchInstr (s : State) : Option Instr :=
  match decode (fetchBytes s.mem fetchLimit s.cpu.pc) with
  | .ok (i, _) => if i.complete then some i else none
  | .error _ => none

/-- `Step()` (rule R102). -/
def State.cpuStep (s : State) : Result :=
  let s1 := s.beginStep
  if s1.cpu.halted then .next s1.idle
  else
    match s1.fetchInstr with
    | some i => exec i s1
    | none => .fault .endlessIndexBytes

/-! ## `process_events` (rule R409) -/

/-- One queued port write: border, speaker and MIC. -/
def State.applyUlaEvent (s : State) (e : UlaEvent) : State :=
  let speaker := bit e.value 4
  let mic := bit e.value 3
  { s with
    ula := { s.ula with border := e.value.extractLsb' 0 3, beeperLevel := speaker, micLevel := mic }
    beeper := if speaker != s.ula.beeperLevel then s.beeper.push s.config.sampleRate e.tState speaker else s.beeper
    recorder := s.recorder.micEvent e.tState mic }

/-- `process_events`: every queued write, oldest first; the queue ends empty. -/
def State.processEvents (s : State) : State :=
  let s1 := s.ula.queue.foldl State.applyUlaEvent s
  { s1 with ula := { s1.ula with queue := [] } }

/-! ## `Iterate()` (rule R540) -/

/-- T-states onto the clock and the frame count (rule R541). -/
def State.advance (s : State) (t : Nat) : State := { s with clock := s.clock + t, frameAcc := s.frameAcc + t }

/-- The three updates after a step, in their order (rule R542). -/
def State.updateDevices (s : State) : State :=
  let s1 := s.processEvents
  { s1 with
    tape := s1.tape.update s1.clock
    recorder := s1.recorder.update s1.config s1.clock false }

/-- The interrupt of the frame boundary, taken when IFF1 is set; lost otherwise (rules R543, R544, R563). -/
def State.frameInterrupt (s : State) : State :=
  if s.cpu.iff1 then
    let w := s.interrupt Config.intDataByte
    w.1.advance w.2
  else s

/-- The frame boundary, at most one an iteration, and the call to the renderer (rules R543, R545). -/
def State.frameBoundary (s : State) : State :=
  if Config.frameTStates ≤ s.frameAcc then
    let s1 := ({ s with frameAcc := s.frameAcc - Config.frameTStates } : State).frameInterrupt
    { s1 with framesPresented := s1.framesPresented + 1 }
  else s

/-- What follows a step that set no fault. -/
def State.finishIteration (s : State) : State := ((s.advance s.cursor.t).updateDevices).frameBoundary

/-- One iteration.  After a step that set the fault latch nothing more happens: the clock keeps its value (rules R560,
R561). -/
def State.iterate (s : State) : Result :=
  match s.cpuStep with
  | .next s1 => if s1.fault.isSome then .next s1 else .next s1.finishIteration
  | .fault f => .fault f
  | .refused r => .refused r

end Sys2Proof.Machine
end

