-- ==== Sys2Proof/Machine/HostRequests.lean ====
section
/-! DEFINITION. HostRequests: the host's inputs between iterations, the audio consumer's action, shutdown and start-up
(spec/54_main_loop_host.md rules R546, R548 .. R550; spec/51_beeper.md rule R437; spec/53_tape_recorder.md rules R501, R502,
R515, R520). -/

namespace Sys2Proof.Machine

/-! ## Errors (rule R550) -/

/-- What went wrong, in the words of rule R550's table; rule R462 asks for the offending block ID and its file offset. -/
def HostError.text : HostError → String
  | .invalidRom => "ROM wrong size"
  | .tapeParse none => "malformed TAP/TZX/WAV"
  | .tapeParse (some (id, offset)) =>
    "unsupported block ID " ++ toString id.toNat ++ " at file offset " ++ toString offset
  | .tapeIo => "filesystem failure during load or save"
  | .tapeStateConflict => "append requested on a non-WAV destination, or session conflict"
  | .audioDeviceUnavailable => "host audio could not be opened"

/-- The name of a subsystem in a message. -/
def Subsystem.text : Subsystem → String
  | .rom => "rom"
  | .tape => "tape"
  | .recorder => "recorder"
  | .audio => "audio"

/-- The one line a message puts on the error stream: subsystem, path and kind; a line break in the path is left out.
DESIGN CHOICE (log 23): the spec asks for the subsystem and the path and gives no wording. -/
def ErrorMessage.line (m : ErrorMessage) : String :=
  let path := match m.path with
    | some p => String.ofList (p.toList.filter (fun c => c ≠ '\n' && c ≠ '\r')) ++ ": "
    | none => ""
  m.subsystem.text ++ ": " ++ path ++ m.kind.text

/-- An error of the tape player, with the path of the tape file. -/
def tapeError (c : MachineConfig) (e : HostError) : ErrorMessage :=
  { kind := e, subsystem := .tape, path := some c.tapeInputPath }

/-- An error of the recorder, with the path of its destination. -/
def recorderError (c : MachineConfig) (e : HostError) : ErrorMessage :=
  { kind := e, subsystem := .recorder, path := some c.recorderOutputPath }

/-- The audio device could not be opened. -/
def audioError : ErrorMessage := { kind := .audioDeviceUnavailable, subsystem := .audio, path := none }

/-- The ROM image has the wrong size. -/
def romError : ErrorMessage := { kind := .invalidRom, subsystem := .rom, path := none }

/-- A host request that went well. -/
def State.accept (s : State) : State := { s with hostReply := none }

/-- The answer to a host request that failed, and its message on the error stream (rule R550). -/
def State.reject (s : State) (m : ErrorMessage) : State :=
  { s with hostReply := some m, errorStream := s.errorStream ++ [m] }

/-! ## The host's inputs (rule R546) -/

/-- A tape control that cannot be refused. -/
def State.tapeControl (s : State) (t : Tape) : State := ({ s with tape := t } : State).accept

/-- `seek` (rule R479). -/
def State.tapeSeek (s : State) (t : Nat) : State :=
  match s.tape.seek t with
  | some tape => s.tapeControl tape
  | none => s.reject (tapeError s.config .tapeStateConflict)

/-- The outcome of a record start: a session, or the refusal. -/
def State.recordStarted (s : State) (r : Except HostError Recorder) : State :=
  match r with
  | .ok rec => ({ s with recorder := rec } : State).accept
  | .error e => s.reject (recorderError s.config e)

/-- `RecordStop(now)` (rules R515, R520): finalize, write out what is dirty, end the session.
A write that fails is `TapeIo`, and what the destination then holds is a free value (U21, log 17). -/
def State.recordStop (s : State) : State :=
  let r := s.recorder.update s.config s.clock true
  let s1 : State := { s with recorder := r.ended }
  if r.sessionDirty then
    if s.disk.writable then
      ({ s1 with disk := { s.disk with recorderOutput := some (r.output s.config) } } : State).accept
    else
      ({ s1 with
         disk := { s.disk with recorderOutput := Config.freeFile s.freeDraws }
         freeDraws := s.freeDraws + 1 } : State).reject (recorderError s.config .tapeIo)
  else s1.accept

/-- Shutdown (rule R549). -/
def State.shutdownNow (s : State) : State :=
  let s1 := if s.recorder.enabled then s.recordStop else s.accept
  { s1 with tape := s1.tape.pause s1.clock, audioOpen := false, shutDown := true }

/-- The audio consumer produces one sample, when it exists (rules R437, R444). -/
def State.audioSample (s : State) : State :=
  if s.audioOpen then
    let w := s.beeper.nextSample s.config.sampleRate
    { s with beeper := w.2, audioOut := s.audioOut ++ [w.1] }
  else s

/-- What the next action of the schedule does; `now` is the clock (rule R546). -/
def State.act (s : State) (e : HostEvent) : Result :=
  match e with
  | .iterate => s.iterate
  | .audioSample => .next s.audioSample
  | .setKey row column pressed => .next ((s.setKey row column pressed).accept)
  | .tapeStart => .next (s.tapeControl (s.tape.start s.clock))
  | .tapePause => .next (s.tapeControl (s.tape.pause s.clock))
  | .tapeResume => .next (s.tapeControl (s.tape.resume s.clock))
  | .tapeRewind => .next (s.tapeControl s.tape.rewind)
  | .tapeSeek t => .next (s.tapeSeek t)
  | .recordStart => .next (s.recordStarted (s.recorder.start s.config s.disk s.tape.position))
  | .recordStartAppend => .next (s.recordStarted (s.recorder.startAppend s.config s.disk))
  | .recordStop => .next s.recordStop
  | .shutdown => .next s.shutdownNow

/-- Start-up (rule R548): no machine for a ROM image of the wrong size; else the reset state with the image in
0x0000 .. 0x3FFF and the tape the configuration names, and a message for each failure on the way. -/
def State.boot (config : MachineConfig) (rom : List Byte) (disk : Disk) (audioOpens : Bool) : Except ErrorMessage State :=
  if rom.length ≠ Config.romSize then .error romError
  else
    let tape := loadTape config disk
    let source := match tape with
      | .ok w => w
      | .error _ => none
    let tapeErrors := match tape with
      | .ok _ => []
      | .error e => [tapeError config e]
    .ok { State.reset with
          mem := Memory.putBytes [] 0#16 rom, config := config, disk := disk, tape := Tape.reset source,
          audioOpen := audioOpens, errorStream := tapeErrors ++ (if audioOpens then [] else [audioError]) }

/-- A row's word where the next step fetches, ROM or not: how a program comes to stand in memory from outside the machine
(log 14).  The rest is what the fetch needs: a CPU that is awake and a main loop that runs. -/
def State.placeWord (s : State) (nbits w : Nat) : State :=
  { s with
    mem := s.mem.putBytes s.cpu.pc (tableBytes nbits w)
    cpu := { s.cpu with halted := false }
    schedule := []
    fault := none
    shutDown := false }

end Sys2Proof.Machine
end

