-- ==== Sys2Proof/Machine/Step.lean ====
section
/-! DEFINITION. Step: one step of the machine: an iteration of the main loop, or the next action of the outside world that
stands before it (spec/54_main_loop_host.md rules R540, R546; log 8, 12). -/

namespace Sys2Proof.Machine

/-- One step.  Nothing runs after shutdown (rule R549) or once the fault latch is set (rules R48, R560). -/
def step (s : State) : Host.Outcome State Fault Refusal :=
  if s.shutDown then .fault .shutDown
  else
    match s.fault with
    | some record => .fault (.unknownOpcode record)
    | none =>
      match s.schedule with
      | [] => s.iterate
      | e :: rest => ({ s with schedule := rest } : State).act e

/-- The state with a row's word placed where `step` fetches its next instruction (log 14). -/
def State.withFetchWord (s : State) (nbits w : Nat) : State := s.placeWord nbits w

end Sys2Proof.Machine
end

