-- ==== Sys2Proof/Safety.lean ====
section
/-! DEFINITION. Safety: the words the statements about this machine use: when it runs, what a step may leave alone, the
instructions of one shape as tables, and the invariant of a run. -/

namespace Sys2Proof.Machine

/-! ## Running -/

/-- Nothing keeps the next step from running: no shutdown, no fault (rules R48, R549). -/
def State.running (s : State) : Prop := s.shutDown = false ∧ s.fault = none

/-- What a step makes of instruction `i`: it runs on the state the step's first lines leave, and the iteration goes on
unless the fault latch was set (rules R102, R540, R560). -/
def State.runAs (s : State) (i : Instr) : Result :=
  match exec i s.beginStep with
  | .next t => if t.fault.isSome then .next t else .next t.finishIteration
  | .fault f => .fault f
  | .refused r => .refused r

/-! ## Requests of the host (rules R546, R550) -/

/-- The step in which the main agent applies `e` answers `t`: `e` is the next action queued on `s`. -/
def RequestAnswers (e : HostEvent) (s t : State) : Prop :=
  step { s with schedule := e :: s.schedule } = .next t

/-- The request is granted and leaves `t`. -/
def RequestDone (e : HostEvent) (s t : State) : Prop := RequestAnswers e s { t with hostReply := none }

/-- The request is refused with `m`: the answer and one message on the error stream, and nothing else changes. -/
def RequestRefused (e : HostEvent) (s : State) (m : ErrorMessage) : Prop :=
  RequestAnswers e s { s with hostReply := some m, errorStream := s.errorStream ++ [m] }

/-- A new session of the recorder (rules R501, R502): nothing captured, and what it knows of the old file. -/
def newSession (r : Recorder) (format : SessionFormat) (append : Bool) (existing : Option (List Byte)) (keep : Nat) : Recorder :=
  { r with enabled := true, format := format, append := append, blockActive := false, pendingPulses := [],
           audioBuf := [], tapBlocks := [], sessionDirty := false, wavExisting := existing, wavPrefixSamples := keep }

/-! ## Tape files -/

/-- A record of a TAP file (rule R461). -/
def tapRecord (data : List Byte) : List Byte := leBytes 2 data.length ++ data

/-- A standard-speed block of a TZX file (rule R462). -/
def tzxRecord (b : Block) : List Byte := 0x10#8 :: (leBytes 2 b.pauseMs.toNat ++ tapRecord b.data)

/-- A sequence of runs of alternating level, `lvl` the level of the first (rules R464, R507). -/
def runsOf {α : Type} (value : Bool → α) (lvl : Bool) (runs : List Nat) : List α :=
  runs.zipIdx.flatMap (fun w => List.replicate w.1 (value (lvl ^^ decide (w.2 % 2 = 1))))

/-! ## Frames -/

/-- Every byte of memory reads as before. -/
def SameBytes (s t : State) : Prop := ∀ x : Word, t.read8 x = s.read8 x

/-- Address `a` took the byte `v`, unless it lies in ROM; every other byte reads as before (rule R62). -/
def StoredByte (s t : State) (a : Word) (v : Byte) : Prop :=
  ∀ x : Word, t.read8 x = if x = a ∧ Config.romSize ≤ a.toNat then v else s.read8 x

/-- Addresses `a` and `a + 1` took the low and the high byte of `v`, each unless it lies in ROM; every other byte reads as
before (rule R63). -/
def StoredWord (s t : State) (a : Word) (v : Word) : Prop :=
  ∀ x : Word, t.read8 x =
    if x = a ∧ Config.romSize ≤ a.toNat then loByte v
    else if x = a + 1#16 ∧ Config.romSize ≤ (a + 1#16).toNat then hiByte v
    else s.read8 x

/-- Everything but the CPU, the time cursor and memory is as before: the clock, the keyboard, the ULA, the beeper, the
tape, the recorder, the fault latch and all the rest of the state. -/
def SameOutside (s t : State) : Prop := t = { s with cpu := t.cpu, cursor := t.cursor, mem := t.mem }

/-- The instruction took `n` bytes, `k` opcode fetches and `t` T-states (rules R25, R29, R36): PC past the bytes, R counted,
the cursor moved on and otherwise as before but for the last index prefix. -/
def Took (s u : State) (n k t : Nat) : Prop :=
  u.cpu.pc = s.cpu.pc + BitVec.ofNat 16 n ∧ u.cpu.r = incRTimes k s.cpu.r ∧
    u.cursor = { s.cursor with t := s.cursor.t + t, lastXy := u.cursor.lastXy }

/-- The same for an instruction that writes PC itself. -/
def TookTo (s u : State) (pc : Word) (k t : Nat) : Prop :=
  u.cpu.pc = pc ∧ u.cpu.r = incRTimes k s.cpu.r ∧
    u.cursor = { s.cursor with t := s.cursor.t + t, lastXy := u.cursor.lastXy }

/-- Only A, F, PC and R of the CPU may differ. -/
def OnlyAF (c d : Cpu) : Prop := d = { c with a := d.a, f := d.f, pc := d.pc, r := d.r }

/-- Only F, PC and R of the CPU may differ. -/
def OnlyF (c d : Cpu) : Prop := d = { c with f := d.f, pc := d.pc, r := d.r }

/-- Only PC and R of the CPU may differ. -/
def OnlyPcR (c d : Cpu) : Prop := d = { c with pc := d.pc, r := d.r }

/-! ## What an instruction does, in one word -/

/-- The instruction completes on `s`; the registers are then those of `c` apart from PC and R, and memory and everything
outside the CPU are as before. -/
def Computes (i : Instr) (s : State) (c : Cpu) (n k tt : Nat) : Prop :=
  ∃ t, exec i s = .next t ∧ Took s t n k tt ∧ t.cpu = { c with pc := t.cpu.pc, r := t.cpu.r } ∧ SameBytes s t ∧
    SameOutside s t

/-- The instruction completes on `s` and stores the byte `v` at `a`; no register but PC and R changes. -/
def StoresByte (i : Instr) (s : State) (a : Word) (v : Byte) (n k tt : Nat) : Prop :=
  ∃ t, exec i s = .next t ∧ Took s t n k tt ∧ OnlyPcR s.cpu t.cpu ∧ StoredByte s t a v ∧ SameOutside s t

/-- The instruction completes on `s` and stores the word `v` at `a`; the registers are then those of `c` apart from PC
and R. -/
def StoresWord (i : Instr) (s : State) (c : Cpu) (a v : Word) (n k tt : Nat) : Prop :=
  ∃ t, exec i s = .next t ∧ Took s t n k tt ∧ t.cpu = { c with pc := t.cpu.pc, r := t.cpu.r } ∧ StoredWord s t a v ∧
    SameOutside s t

/-- The instruction completes on `s` and goes to `pc`; the registers are then those of `c` apart from PC and R, and
memory and everything outside the CPU are as before. -/
def JumpsTo (i : Instr) (s : State) (pc : Word) (c : Cpu) (k tt : Nat) : Prop :=
  ∃ t, exec i s = .next t ∧ TookTo s t pc k tt ∧ t.cpu = { c with pc := t.cpu.pc, r := t.cpu.r } ∧ SameBytes s t ∧
    SameOutside s t

/-- The instruction completes on `s`, pushes the word `v` and goes to `pc` (rule R76). -/
def CallsTo (i : Instr) (s : State) (pc v : Word) (k tt : Nat) : Prop :=
  ∃ t, exec i s = .next t ∧ TookTo s t pc k tt ∧
    t.cpu = { s.cpu with sp := s.cpu.sp - 2#16, pc := t.cpu.pc, r := t.cpu.r } ∧
    StoredWord s t (s.cpu.sp - 2#16) v ∧ SameOutside s t

/-- A write of `v` to `port`, `k` T-states into the step: an odd port drops it; an even one queues it for the ULA, the
time stamp never running back, the oldest event dropped when the queue is full (rules R401, R406, R407). -/
def PortWrote (s t : State) (port : Word) (v : Byte) (k : Nat) : Prop :=
  if port.toNat % 2 = 1 then t.ula = s.ula
  else
    let stamp := max (s.cursor.tBase + s.cursor.t + k) s.ula.lastT
    t.ula = { s.ula with
      queue := (if s.ula.queue.length = 64 then s.ula.queue.tail else s.ula.queue) ++ [{ value := v, tState := stamp }]
      lastT := stamp }

/-! ## Flags -/

/-- S, Y and X are bits 7, 5 and 3 of `r`, and Z says whether it is zero (rule R190). -/
def ResultFlags (f r : Byte) : Prop :=
  flagS f = bit r 7 ∧ (flagZ f = true ↔ r.toNat = 0) ∧ flagY f = bit r 5 ∧ flagX f = bit r 3

/-- S, Z and P/V are as they were. -/
def KeptSZP (f g : Byte) : Prop := flagS g = flagS f ∧ flagZ g = flagZ f ∧ flagP g = flagP f

/-- Y and X are bits 5 and 3 of `v`. -/
def FlagsXY (f v : Byte) : Prop := flagY f = bit v 5 ∧ flagX f = bit v 3

/-- How many bits of a byte are 1. -/
def onesIn (v : Byte) : Nat := ((List.range 8).filter (fun i => bit v i)).length

/-- P/V says whether the number of 1 bits of `v` is even (rule R8). -/
def ParityFlag (f v : Byte) : Prop := flagP f = true ↔ onesIn v % 2 = 0

/-- P/V says whether the exact signed result `n` is outside the 8-bit range. -/
def Overflow8 (f : Byte) (n : Int) : Prop := flagP f = true ↔ n < -128 ∨ 127 < n

/-- P/V says whether the exact signed result `n` is outside the 16-bit range. -/
def Overflow16 (f : Byte) (n : Int) : Prop := flagP f = true ↔ n < -32768 ∨ 32767 < n

/-- The condition of a conditional instruction, spelled out (rules R94, R290). -/
def condMeans (cc : Cond) (f : Byte) : Prop :=
  match cc with
  | .nz => flagZ f = false
  | .z => flagZ f = true
  | .nc => flagC f = false
  | .c => flagC f = true
  | .po => flagP f = false
  | .pe => flagP f = true
  | .p => flagS f = false
  | .m => flagS f = true

/-- The four relative jumps with a condition, and it (rules R294 .. R297). -/
def jrInstr (zero set : Bool) (e : Byte) : Instr :=
  match zero, set with
  | true, true => .jrZ e
  | true, false => .jrNz e
  | false, true => .jrC e
  | false, false => .jrNc e

/-- The target of a relative jump in an instruction of two bytes at PC (rule R101). -/
def relTarget (pc : Word) (e : Byte) : Word := BitVec.ofInt 16 ((pc.toNat : Int) + 2 + e.toInt)

/-- The effective address of (XY+d) over the integers (rule R100). -/
def indexedAddress (c : Cpu) (xy : Xy) (d : Byte) : Word :=
  BitVec.ofInt 16 (((match xy with | .ix => c.ix | .iy => c.iy).toNat : Int) + d.toInt)

/-! ## Rotates -/

/-- The four rotates of A alone: to the left or not, through the carry or not (rules R250 .. R253). -/
def accRotInstr : Bool → Bool → Instr
  | true, false => .rlca
  | true, true => .rla
  | false, false => .rrca
  | false, true => .rra

/-- `r` is `v` moved one bit to the left, with `fill` in bit 0, or to the right, with `fill` in bit 7. -/
def ShiftedBy (left : Bool) (v r : Byte) (fill : Bool) : Prop :=
  if left then bit r 0 = fill ∧ ∀ i, i < 7 → bit r (i + 1) = bit v i
  else bit r 7 = fill ∧ ∀ i, i < 7 → bit r i = bit v (i + 1)

/-- Whether a rotate or shift goes to the left (rule R254). -/
def RotOp.left : RotOp → Bool
  | .rlc | .rl | .sla | .sll => true
  | .rrc | .rr | .sra | .srl => false

/-- The bit that comes in (rule R254), `c` the carry before. -/
def RotOp.fill (v : Byte) (c : Bool) : RotOp → Bool
  | .rlc => bit v 7
  | .rrc => bit v 0
  | .rl | .rr => c
  | .sla | .srl => false
  | .sra => bit v 7
  | .sll => true

/-! ## Decimal digits -/

/-- A byte of two decimal digits. -/
def isBcd (v : Byte) : Prop := v.toNat / 16 ≤ 9 ∧ v.toNat % 16 ≤ 9

/-- The number it stands for. -/
def bcdValue (v : Byte) : Nat := 10 * (v.toNat / 16) + v.toNat % 16

/-! ## Many steps -/

/-- `n` steps, when every one answers a next state. -/
def stepTimes : Nat → State → Option State
  | 0, s => some s
  | n + 1, s =>
    match step s with
    | .next t => stepTimes n t
    | _ => none

/-! ## The beeper's filter -/

/-- What the DC-blocking filter holds (rules R437, R439): nothing yet, or a level and an output of that level's sign and
of at most twice the amplitude. -/
def Beeper.FilterOk (b : Beeper) : Prop :=
  (b.xPrev = 0 ∧ b.yPrev = 0) ∨ (b.xPrev = 2000 ∧ 0 ≤ b.yPrev ∧ b.yPrev ≤ 4000) ∨
    (b.xPrev = -2000 ∧ -4000 ≤ b.yPrev ∧ b.yPrev ≤ 0)

/-! ## Instructions of one shape -/

/-- Where an accumulator operation takes its operand from (rule R194). -/
inductive AluSource where
  | reg (r : Reg8)
  | memHl
  | imm (n : Byte)
  | xyd (xy : Xy) (d : Byte)
  | half (xy : Xy) (k : Half)
  deriving DecidableEq, Repr

/-- The forty accumulator instructions (rules R195 .. R202). -/
def aluInstr : AluOp → AluSource → Instr
  | .add, .reg r => .addR r
  | .add, .memHl => .addMemHl
  | .add, .imm n => .addN n
  | .add, .xyd xy d => .addXyd xy d
  | .add, .half xy k => .addXyHalf xy k
  | .adc, .reg r => .adcR r
  | .adc, .memHl => .adcMemHl
  | .adc, .imm n => .adcN n
  | .adc, .xyd xy d => .adcXyd xy d
  | .adc, .half xy k => .adcXyHalf xy k
  | .sub, .reg r => .subR r
  | .sub, .memHl => .subMemHl
  | .sub, .imm n => .subN n
  | .sub, .xyd xy d => .subXyd xy d
  | .sub, .half xy k => .subXyHalf xy k
  | .sbc, .reg r => .sbcR r
  | .sbc, .memHl => .sbcMemHl
  | .sbc, .imm n => .sbcN n
  | .sbc, .xyd xy d => .sbcXyd xy d
  | .sbc, .half xy k => .sbcXyHalf xy k
  | .and, .reg r => .andR r
  | .and, .memHl => .andMemHl
  | .and, .imm n => .andN n
  | .and, .xyd xy d => .andXyd xy d
  | .and, .half xy k => .andXyHalf xy k
  | .xor, .reg r => .xorR r
  | .xor, .memHl => .xorMemHl
  | .xor, .imm n => .xorN n
  | .xor, .xyd xy d => .xorXyd xy d
  | .xor, .half xy k => .xorXyHalf xy k
  | .or, .reg r => .orR r
  | .or, .memHl => .orMemHl
  | .or, .imm n => .orN n
  | .or, .xyd xy d => .orXyd xy d
  | .or, .half xy k => .orXyHalf xy k
  | .cp, .reg r => .cpR r
  | .cp, .memHl => .cpMemHl
  | .cp, .imm n => .cpN n
  | .cp, .xyd xy d => .cpXyd xy d
  | .cp, .half xy k => .cpXyHalf xy k

/-- The operand of an accumulator instruction (rule R194). -/
def AluSource.value (s : State) : AluSource → Byte
  | .reg r => s.cpu.reg8 r
  | .memHl => s.read8 s.cpu.hl
  | .imm n => n
  | .xyd xy d => s.read8 (s.cpu.ea xy d)
  | .half xy k => s.cpu.half xy k

/-- Bytes, opcode fetches and T-states of each form (rule R194). -/
def AluSource.cost : AluSource → Nat × Nat × Nat
  | .reg _ => (1, 1, 4)
  | .memHl => (1, 1, 7)
  | .imm _ => (2, 1, 7)
  | .xyd _ _ => (3, 2, 19)
  | .half _ _ => (2, 2, 8)

/-- What a rotate, shift, SET or RES works on (rules R255, R275). -/
inductive BitTarget where
  | reg (r : Reg8)
  | memHl
  | xyd (xy : Xy) (d : Byte)
  | xydCopy (xy : Xy) (d : Byte) (r : Reg8)
  deriving DecidableEq, Repr

/-- The thirty-two rotates and shifts of the CB table and the indexed bit table (rules R256 .. R263, R275). -/
def rotInstr : RotOp → BitTarget → Instr
  | .rlc, .reg r => .rlcR r
  | .rlc, .memHl => .rlcMemHl
  | .rlc, .xyd xy d => .rlcXyd xy d
  | .rlc, .xydCopy xy d r => .rlcXydR xy d r
  | .rrc, .reg r => .rrcR r
  | .rrc, .memHl => .rrcMemHl
  | .rrc, .xyd xy d => .rrcXyd xy d
  | .rrc, .xydCopy xy d r => .rrcXydR xy d r
  | .rl, .reg r => .rlR r
  | .rl, .memHl => .rlMemHl
  | .rl, .xyd xy d => .rlXyd xy d
  | .rl, .xydCopy xy d r => .rlXydR xy d r
  | .rr, .reg r => .rrR r
  | .rr, .memHl => .rrMemHl
  | .rr, .xyd xy d => .rrXyd xy d
  | .rr, .xydCopy xy d r => .rrXydR xy d r
  | .sla, .reg r => .slaR r
  | .sla, .memHl => .slaMemHl
  | .sla, .xyd xy d => .slaXyd xy d
  | .sla, .xydCopy xy d r => .slaXydR xy d r
  | .sra, .reg r => .sraR r
  | .sra, .memHl => .sraMemHl
  | .sra, .xyd xy d => .sraXyd xy d
  | .sra, .xydCopy xy d r => .sraXydR xy d r
  | .sll, .reg r => .sllR r
  | .sll, .memHl => .sllMemHl
  | .sll, .xyd xy d => .sllXyd xy d
  | .sll, .xydCopy xy d r => .sllXydR xy d r
  | .srl, .reg r => .srlR r
  | .srl, .memHl => .srlMemHl
  | .srl, .xyd xy d => .srlXyd xy d
  | .srl, .xydCopy xy d r => .srlXydR xy d r

/-- `SET b,m` (rules R273, R275). -/
def setInstr (y : Fin 8) : BitTarget → Instr
  | .reg r => .setR y r
  | .memHl => .setMemHl y
  | .xyd xy d => .setXyd xy d y
  | .xydCopy xy d r => .setXydR xy d y r

/-- `RES b,m` (rules R274, R275). -/
def resInstr (y : Fin 8) : BitTarget → Instr
  | .reg r => .resR y r
  | .memHl => .resMemHl y
  | .xyd xy d => .resXyd xy d y
  | .xydCopy xy d r => .resXydR xy d y r

/-- The value such an instruction reads (rule R255). -/
def BitTarget.value (s : State) : BitTarget → Byte
  | .reg r => s.cpu.reg8 r
  | .memHl => s.read8 s.cpu.hl
  | .xyd xy d => s.read8 (s.cpu.ea xy d)
  | .xydCopy xy d _ => s.read8 (s.cpu.ea xy d)

/-- The memory byte it writes, if any (rule R255). -/
def BitTarget.address (s : State) : BitTarget → Option Word
  | .reg _ => none
  | .memHl => some s.cpu.hl
  | .xyd xy d => some (s.cpu.ea xy d)
  | .xydCopy xy d _ => some (s.cpu.ea xy d)

/-- The register it writes, if any (rules R255, R275). -/
def BitTarget.register : BitTarget → Option Reg8
  | .reg r => some r
  | .memHl => none
  | .xyd _ _ => none
  | .xydCopy _ _ r => some r

/-- Bytes, opcode fetches and T-states (rule R255). -/
def BitTarget.cost : BitTarget → Nat × Nat × Nat
  | .reg _ => (2, 2, 8)
  | .memHl => (2, 2, 15)
  | .xyd _ _ => (4, 2, 23)
  | .xydCopy _ _ _ => (4, 2, 23)

/-- What an 8-bit INC or DEC works on (rules R203 .. R210). -/
inductive StepTarget where
  | reg (r : Reg8)
  | memHl
  | xyd (xy : Xy) (d : Byte)
  | half (xy : Xy) (k : Half)
  deriving DecidableEq, Repr

/-- The four 8-bit increments. -/
def incInstr : StepTarget → Instr
  | .reg r => .incR r
  | .memHl => .incMemHl
  | .xyd xy d => .incXyd xy d
  | .half xy k => .incXyHalf xy k

/-- The four 8-bit decrements. -/
def decInstr : StepTarget → Instr
  | .reg r => .decR r
  | .memHl => .decMemHl
  | .xyd xy d => .decXyd xy d
  | .half xy k => .decXyHalf xy k

/-- The value counted. -/
def StepTarget.value (s : State) : StepTarget → Byte
  | .reg r => s.cpu.reg8 r
  | .memHl => s.read8 s.cpu.hl
  | .xyd xy d => s.read8 (s.cpu.ea xy d)
  | .half xy k => s.cpu.half xy k

/-- The memory byte written, if any. -/
def StepTarget.address (s : State) : StepTarget → Option Word
  | .memHl => some s.cpu.hl
  | .xyd xy d => some (s.cpu.ea xy d)
  | _ => none

/-- The CPU with `v` in the register or half register written, if any. -/
def StepTarget.into (s : State) (v : Byte) : StepTarget → Cpu
  | .reg r => s.cpu.setReg8 r v
  | .half xy k => (s.setHalf xy k v).cpu
  | _ => s.cpu

/-- Bytes, opcode fetches and T-states (rules R203 .. R210). -/
def StepTarget.cost : StepTarget → Nat × Nat × Nat
  | .reg _ => (1, 1, 4)
  | .memHl => (1, 1, 11)
  | .xyd _ _ => (3, 2, 23)
  | .half _ _ => (2, 2, 8)

/-- The four block transfers: ascending or descending, repeating or not (rules R321 .. R324). -/
def blockLdInstr : Bool → Bool → Instr
  | true, false => .ldi
  | true, true => .ldir
  | false, false => .ldd
  | false, true => .lddr

/-- The four block searches (rules R325 .. R328). -/
def blockCpInstr : Bool → Bool → Instr
  | true, false => .cpi
  | true, true => .cpir
  | false, false => .cpd
  | false, true => .cpdr

/-- The four block inputs (rules R329 .. R332). -/
def blockInInstr : Bool → Bool → Instr
  | true, false => .ini
  | true, true => .inir
  | false, false => .ind
  | false, true => .indr

/-- The four block outputs (rules R333 .. R336). -/
def blockOutInstr : Bool → Bool → Instr
  | true, false => .outi
  | true, true => .otir
  | false, false => .outd
  | false, true => .otdr

/-- A pair counted up or down by one, modulo 65,536. -/
def stepWord (ascending : Bool) (v : Word) : Word := if ascending then v + 1#16 else v - 1#16

/-- The memory effect of an instruction that stores one byte, or none. -/
def StoredAt (s t : State) (a : Option Word) (v : Byte) : Prop :=
  match a with
  | some a => StoredByte s t a v
  | none => SameBytes s t

/-- The registers with `v` in the one an instruction writes, if any. -/
def Cpu.withReg (c : Cpu) (r : Option Reg8) (v : Byte) : Cpu :=
  match r with
  | some r => c.setReg8 r v
  | none => c

/-- The instruction behind a run of index prefixes (rules R103, R363). -/
def innermost : Instr → Instr
  | .xpMain _ i => innermost i
  | .xpEd _ i => innermost i
  | .xpXp _ i => innermost i
  | i => i

/-! ## The invariant of a run -/

/-- What holds between steps: memory is in its canonical form, IFF1 and IFF2 agree (rule R34), the ULA queue is empty
(rule R41), no ULA time stamp and no recorded transition lies in the future (rule R615), the beeper ring is within its
capacity (rule R445), the tape head is on the tape, every pulse of the tape lasts 1 T-state or more (rule R44), and without
a tape nothing plays (rule R49). -/
structure State.Inv (s : State) : Prop where
  mem : s.mem.wf = true
  iff : s.cpu.iff1 = s.cpu.iff2
  queue : s.ula.queue = []
  stamp : s.ula.lastT ≤ s.clock
  ring : s.beeper.ring.length ≤ Config.beeperRingCap
  recorded : s.recorder.blockActive = true → s.recorder.lastTransitionT ≤ s.clock
  tape : ∀ w, s.tape.source = some w → s.tape.cursor ≤ w.pulses.length ∧
    (s.tape.playing = true → s.tape.cursor < w.pulses.length) ∧
    (s.tape.done = false → 0 < s.tape.remaining → s.tape.cursor < w.pulses.length)
  pulses : ∀ w, s.tape.source = some w → ∀ p ∈ w.pulses, p ≠ 0#32
  noTape : s.tape.source = none → s.tape.playing = false

/-! ## What the audio consumer alone can change -/

/-- The state without the beeper pipeline and the samples it has given. -/
def State.withoutAudio (s : State) : State := { s with beeper := Beeper.reset, audioOut := [] }

end Sys2Proof.Machine
end

