-- ==== Sys2Proof/Certificates/Slice0/Obligations.lean ====
section
/-! DEFINITION. Obligations: the statements about this machine, each a proposition for the provers. -/

section

open Sys2Proof Sys2Proof.Machine

/-! ## Encoding -/

/-- R90 .. R116: decoding the encoding of a well-formed instruction gives it back and leaves the bytes behind it.  The bare
prefix bytes CB, ED, DD, FD (and a run of index prefixes that ends in one), which more bytes would complete, are read back
with nothing behind them: that the decoder answers these rows at the end of the bytes, and only there, is the model's choice
(log 19, DESIGN CHOICE); R111 says that they are no instructions of their own. -/
def Obligations.DecodeOfEncode : Prop :=
  ∀ (i : Instr) (rest : List Byte), i.wf = true → (i.complete = true ∨ rest = []) →
    decode (encode i ++ rest) = .ok (i, rest)

/-- R90 .. R116: whatever the decoder reads is the encoding of a well-formed instruction, so no two byte sequences are
read as one instruction and no bit is dropped. -/
def Obligations.EncodeOfDecode : Prop :=
  ∀ (bytes rest : List Byte) (i : Instr), decode bytes = .ok (i, rest) → bytes = encode i ++ rest ∧ i.wf = true

/-- Words written out from the spec's encodings: R130, R131, R160, R195, R203, R230, R256, R270, R275, R292, R307, R321,
R351, R213, R145, R147, R148, R104, R103. -/
def Obligations.SpecWordsDecode : Prop :=
  decode [0b01000001#8] = .ok (.ldRR .b .c, []) ∧
  decode [0b00111110#8, 0xFF#8] = .ok (.ldRN .a 0xFF#8, []) ∧
  decode [0b00110001#8, 0x34#8, 0x12#8] = .ok (.ldRpNn .sp 0x1234#16, []) ∧
  decode [0b10000110#8] = .ok (.addMemHl, []) ∧
  decode [0b00101100#8] = .ok (.incR .l, []) ∧
  decode [0b00111001#8] = .ok (.addHlRp .sp, []) ∧
  decode [0b11001011#8, 0b00000111#8] = .ok (.rlcR .a, []) ∧
  decode [0b11001011#8, 0b01111010#8] = .ok (.bitR 7 .d, []) ∧
  decode [0b11111101#8, 0b11001011#8, 0xFE#8, 0b11101001#8] = .ok (.setXydR .iy 0xFE#8 5 .c, []) ∧
  decode [0b11101010#8, 0x00#8, 0x90#8] = .ok (.jpCcNn .pe 0x9000#16, []) ∧
  decode [0b11101111#8] = .ok (.rst 5, []) ∧
  decode [0b11101101#8, 0b10110000#8] = .ok (.ldir, []) ∧
  decode [0b11101101#8, 0b01111000#8] = .ok (.inRC .a, []) ∧
  decode [0b11101101#8, 0b01111100#8] = .ok (.neg 7, []) ∧
  decode [0b11011101#8, 0b01111110#8, 0xFE#8] = .ok (.ldRXyd .ix .a 0xFE#8, []) ∧
  decode [0b11111101#8, 0b00110110#8, 0x01#8, 0xAB#8] = .ok (.ldXydN .iy 0x01#8 0xAB#8, []) ∧
  decode [0b11011101#8, 0b01100101#8] = .ok (.ldRRXy .ix .h .l, []) ∧
  decode [0b11011101#8, 0b11101011#8] = .ok (.xpMain .ix .exDeHl, []) ∧
  decode [0b11011101#8, 0b11111101#8, 0b11101101#8, 0b10110000#8] = .ok (.xpXp .ix (.xpEd .iy .ldir), [])

/-- R114: behind ED, exactly the listed sub-opcodes are undefined, 183 of the 256; the main table and the CB table, behind an
index prefix or not, have no hole: each of their opcodes is read as an instruction that is none of these. -/
def Obligations.UndefinedEncodings : Prop :=
  (∀ op : Byte, decode [0xED#8, op] = .ok (.undefinedEd op, []) ↔
    (op.toNat ≤ 0x3F ∨ op.toNat ∈ [0x4E, 0x66, 0x6E, 0x76, 0x7E, 0x77, 0x7F] ∨
      (0x80 ≤ op.toNat ∧ op.toNat ≤ 0x9F) ∨ (0xA4 ≤ op.toNat ∧ op.toNat ≤ 0xA7) ∨
      (0xAC ≤ op.toNat ∧ op.toNat ≤ 0xAF) ∨ (0xB4 ≤ op.toNat ∧ op.toNat ≤ 0xB7) ∨
      (0xBC ≤ op.toNat ∧ op.toNat ≤ 0xBF) ∨ 0xC0 ≤ op.toNat)) ∧
  ((List.range 256).filter (fun n => undefinedEdOp (BitVec.ofNat 8 n))).length = 183 ∧
  (∀ op n m : Byte, op ∉ [0xCB#8, 0xDD#8, 0xED#8, 0xFD#8] →
    ∃ i rest, decode [op, n, m] = .ok (i, rest) ∧ i.complete = true ∧ ∀ x, i ≠ .undefinedEd x) ∧
  (∀ op d : Byte, ∀ xy : Byte, xy = 0xDD#8 ∨ xy = 0xFD#8 →
    (∃ i, decode [0xCB#8, op] = .ok (i, []) ∧ i.complete = true ∧ ∀ x, i ≠ .undefinedEd x) ∧
    ∃ i, decode [xy, 0xCB#8, d, op] = .ok (i, []) ∧ i.complete = true ∧ ∀ x, innermost i ≠ .undefinedEd x)

/-! ## The step -/

/-- R102, R540: when the bytes at PC decode to an instruction, one step is that instruction on the state the step's first
lines leave (the time cursor at the clock, a pending EI taken), and then the rest of the iteration.  R540 .. R542: that rest
is, in this order: the T-states onto clock and frame count, process_events, the tape's update at the new clock, the
recorder's, and the frame boundary. -/
def Obligations.StepRunsDecoded : Prop :=
  (∀ (s : State) (i : Instr) (rest : List Byte), s.running → s.schedule = [] → s.cpu.halted = false →
    decode (fetchBytes s.mem fetchLimit s.cpu.pc) = .ok (i, rest) → i.complete = true →
    step s =
        (match exec i s.beginStep with
         | .next t => if t.fault.isSome then .next t else .next t.finishIteration
         | .fault f => .fault f
         | .refused r => .refused r) ∧
      s.beginStep =
        { s with
          cursor := { tBase := s.clock, t := 0, start := s.cpu.pc, lastXy := none }
          cpu := { s.cpu with iff1 := s.cpu.iff1 || s.cpu.eiDelay, iff2 := s.cpu.iff2 || s.cpu.eiDelay,
                              eiDelay := false } }) ∧
  (∀ s : State,
    let now := s.clock + s.cursor.t
    let u := State.processEvents { s with clock := now, frameAcc := s.frameAcc + s.cursor.t }
    s.finishIteration =
      State.frameBoundary { u with tape := s.tape.update now, recorder := u.recorder.update s.config now false })

/-- R64, R102: the same from the bytes themselves: a machine whose memory holds an instruction's encoding at PC runs that
instruction.  R103: a step has no end exactly when all of memory is index prefixes; that it is then the fault
endlessIndexBytes is the model's reading (log 6, DEDUCED: the spec gives such a step no result). -/
def Obligations.StepRunsEncoded : Prop :=
  (∀ (s : State) (i : Instr), s.running → s.schedule = [] → s.cpu.halted = false →
    i.wf = true → i.complete = true → (encode i).length ≤ Config.memSize →
    (∀ k, k < (encode i).length → (encode i)[k]? = some (s.read8 (s.cpu.pc + BitVec.ofNat 16 k))) →
    step s = s.runAs i) ∧
  (∀ s : State, s.running → s.schedule = [] → s.cpu.halted = false →
    (step s = .fault .endlessIndexBytes ↔ ∀ x : Word, s.read8 x = 0xDD#8 ∨ s.read8 x = 0xFD#8))

/-- R33, R102, R357, R572: a halted step fetches nothing, counts R once and takes 4 T-states, a pending EI taken first; what
wakes a halted CPU is the interrupt of a frame boundary and nothing else, and until then PC stays. -/
def Obligations.HaltedStep : Prop :=
  (∀ s : State, s.running → s.schedule = [] → s.cpu.halted = true →
    step s = .next (State.finishIteration
      { s with
        cpu := { s.cpu with r := incR s.cpu.r, iff1 := s.cpu.iff1 || s.cpu.eiDelay,
                            iff2 := s.cpu.iff2 || s.cpu.eiDelay, eiDelay := false }
        cursor := { tBase := s.clock, t := 4, start := s.cpu.pc, lastXy := none } })) ∧
  (∀ s t : State, s.cpu.halted = true → s.fault = none → s.iterate = .next t →
    (t.cpu.halted = false ↔
      Config.frameTStates ≤ s.frameAcc + 4 ∧ (s.cpu.iff1 = true ∨ s.cpu.eiDelay = true)) ∧
    (t.cpu.halted = true → t.cpu.pc = s.cpu.pc))

/-- R31, R359: EI sets the one-shot and no flip-flop; the step after it begins with both set. -/
def Obligations.EiTakesEffectOneStepLate : Prop :=
  (∀ s : State, ∃ t, exec .ei s = .next t ∧ Took s t 1 1 4 ∧
    t.cpu = { s.cpu with eiDelay := true, pc := t.cpu.pc, r := t.cpu.r } ∧ SameBytes s t ∧ SameOutside s t) ∧
  (∀ s : State, s.cpu.eiDelay = true →
    s.cpuStep = ({ s with cpu := { s.cpu with iff1 := true, iff2 := true, eiDelay := false } } : State).cpuStep)

/-- R541: the clock strictly increases in every iteration that sets no fault, by 4 T-states at least. -/
def Obligations.ClockAdvances : Prop :=
  ∀ s t : State, s.iterate = .next t → t.fault = none → s.clock + 4 ≤ t.clock

/-- R562: the one thing that can set the fault latch is an undefined ED sub-opcode.  That such an instruction answers a
next state, with the latch set, is the model's reading (log 5, DEDUCED; R560 gives that step no T-state count), and that the
bare prefix rows have a meaning at all is its choice (log 19, DESIGN CHOICE). -/
def Obligations.EveryInstructionCompletes : Prop :=
  ∀ (i : Instr) (s : State), ∃ t, exec i s = .next t ∧
    (t.fault = s.fault ∨ ∃ op, innermost i = .undefinedEd op)

/-! ## The fault and the interrupt -/

/-- R48, R114, R560, R561: an undefined ED sub-opcode sets the latch, with the record of where and what; PC and R move past
its two bytes and nothing else changes; that this is a next state is log 5 (DEDUCED).  Once the latch is set every step is a
fault, one for which the host has queued a request or the audio consumer a sample included: that is the model's choice
(log 18, DESIGN CHOICE); R48 says that no agent steps the CPU again. -/
def Obligations.UndefinedEdSetsLatch : Prop :=
  (∀ (op : Byte) (s : State), s.fault = none →
    ∃ t, exec (.undefinedEd op) s = .next t ∧ Took s t 2 2 8 ∧ OnlyPcR s.cpu t.cpu ∧
      t.fault = some { addr := s.cursor.start, xyByte := s.cursor.lastXy, bytes := [0xED#8, op] } ∧
      t = { s with cpu := t.cpu, cursor := t.cursor, fault := t.fault }) ∧
  (∀ (s : State) (r : FaultRecord), s.shutDown = false → s.fault = some r → step s = .fault (.unknownOpcode r))

/-- R114, R560, R561: a step sets the latch only by an undefined ED sub-opcode at PC, behind a run of index prefixes or
none, these bytes standing in memory from PC on; the record names PC, the last prefix and the two bytes, the pending EI has been taken, PC and R have moved past the
bytes fetched, and clock, memory and devices are as before. -/
def Obligations.OnlyUndefinedEdFaults : Prop :=
  ∀ (s t : State) (r : FaultRecord), step s = .next t → s.fault = none → t.fault = some r →
    ∃ (op : Byte) (run : List Xy), undefinedEdOp op = true ∧
      (∀ k (h : k < run.length), s.read8 (s.cpu.pc + BitVec.ofNat 16 k) =
        match run[k] with
        | .ix => 0xDD#8
        | .iy => 0xFD#8) ∧
      s.read8 (s.cpu.pc + BitVec.ofNat 16 run.length) = 0xED#8 ∧
      s.read8 (s.cpu.pc + BitVec.ofNat 16 (run.length + 1)) = op ∧
      r = { addr := s.cpu.pc, xyByte := run.getLast?, bytes := [0xED#8, op] } ∧
      t = { s with
            schedule := s.schedule.tail
            fault := some r
            cursor := t.cursor
            cpu := { s.cpu with pc := s.cpu.pc + BitVec.ofNat 16 (run.length + 2),
                                r := incRTimes (run.length + 2) s.cpu.r,
                                iff1 := s.cpu.iff1 || s.cpu.eiDelay, iff2 := s.cpu.iff2 || s.cpu.eiDelay,
                                eiDelay := false } }

/-- R566 .. R568: taking the interrupt: a halted PC moves past the HALT byte and wakes, both flip-flops are cleared, PC is
pushed, R counts once, and control goes to 0x0038 in 13 T-states, or in mode 2 through the word at `I ++ data` in 19;
every other register, the flags and the one-shot of EI stay, and of memory only the two bytes under SP are written. -/
def Obligations.InterruptEntry : Prop :=
  ∀ (s : State) (data : Byte), s.mem.wf = true →
    let u := (s.interrupt data).1
    u.cpu = { s.cpu with halted := false, iff1 := false, iff2 := false, sp := s.cpu.sp - 2#16, r := incR s.cpu.r,
                         pc := u.cpu.pc } ∧
    StoredWord s u (s.cpu.sp - 2#16) (if s.cpu.halted then s.cpu.pc + 1#16 else s.cpu.pc) ∧
    SameOutside s u ∧ u.cursor = s.cursor ∧
    (s.cpu.im ≠ .im2 → u.cpu.pc = 0x0038#16 ∧ (s.interrupt data).2 = 13) ∧
    (s.cpu.im = .im2 → u.cpu.pc = u.read16 (mkWord s.cpu.i data) ∧ (s.interrupt data).2 = 19)

/-- R543, R544, R563, R564: before the boundary nothing happens; at it the excess is carried; with IFF1 = 0 no interrupt
is taken and nothing is remembered; with IFF1 = 1 the interrupt with data 0xFF is taken and its T-states count in both. -/
def Obligations.FrameBoundary : Prop :=
  ∀ s : State,
    (s.frameAcc < 69888 → s.frameBoundary = s) ∧
    (69888 ≤ s.frameAcc → s.cpu.iff1 = false →
      s.frameBoundary = { s with frameAcc := s.frameAcc - 69888, framesPresented := s.framesPresented + 1 }) ∧
    (69888 ≤ s.frameAcc → s.cpu.iff1 = true →
      let w := ({ s with frameAcc := s.frameAcc - 69888 } : State).interrupt 0xFF#8
      s.frameBoundary =
        { w.1 with clock := s.clock + w.2, frameAcc := s.frameAcc - 69888 + w.2,
                   framesPresented := s.framesPresented + 1 })

/-! ## Invariants and whole-machine rules -/

/-- R34, R38, R41, R44, R45, R445, R615: the invariant of a run is kept by every step, whatever the step does. -/
def Obligations.InvariantKept : Prop := ∀ s t : State, s.Inv → step s = .next t → t.Inv

/-- The invariant holds at reset, and reset holds the values R49 states.  No tape, and with it the EAR level 0, is the default
configuration's (log 7, DESIGN CHOICE: R49 loads a tape when the configuration names one); that nothing keeps the machine
from running (`running`) is about a field of the model's own (log 9, DESIGN CHOICE). -/
def Obligations.ResetState : Prop :=
  State.reset.Inv ∧ State.reset.running ∧ State.reset.cpu.pc = 0#16 ∧ State.reset.cpu.i = 0#8 ∧
  State.reset.cpu.r = 0#8 ∧ State.reset.cpu.iff1 = false ∧ State.reset.cpu.iff2 = false ∧
  State.reset.cpu.eiDelay = false ∧ State.reset.cpu.halted = false ∧ State.reset.cpu.im = .im0 ∧
  State.reset.clock = 0 ∧ State.reset.frameAcc = 0 ∧ (∀ i : Fin 8, State.reset.keys[i] = 0xFF#8) ∧
  State.reset.ula = { border := 0#3, beeperLevel := false, micLevel := false, queue := [], lastT := 0 } ∧
  State.reset.beeper =
    { ring := [], writerCursor := 0, position := 0, outLevel := false, xPrev := 0, yPrev := 0, idleSamples := 0 } ∧
  State.reset.tape.source = none ∧ State.reset.tape.playing = false ∧ State.reset.tape.cursor = 0 ∧
  State.reset.tape.earLevel = false ∧ State.reset.tape.position = 0 ∧ State.reset.tape.remaining = 0 ∧
  State.reset.tape.done = false ∧ State.reset.recorder.enabled = false ∧ State.reset.recorder.blockActive = false ∧
  State.reset.recorder.pendingPulses = [] ∧ State.reset.recorder.audioBuf = [] ∧
  State.reset.recorder.tapBlocks = [] ∧ State.reset.recorder.sessionDirty = false ∧ State.reset.fault = none

/-- R38, R44, R51, R62: no step of any kind changes a byte of ROM, the configuration, or the tape that was loaded. -/
def Obligations.RomConfigAndTapeFixed : Prop :=
  ∀ s t : State, step s = .next t →
    (∀ a : Nat, a < 0x4000 → t.mem.get a = s.mem.get a) ∧ t.config = s.config ∧ t.tape.source = s.tape.source

/-- R22, R28 .. R33, R46: which instructions can change a register outside the general ones: I, the interrupt mode,
`halted`, the EI one-shot, the flip-flops, bit 7 of R, the shadows. -/
def Obligations.SystemRegisterWriters : Prop :=
  ∀ (i : Instr) (s t : State), exec i s = .next t →
    (t.cpu.i ≠ s.cpu.i → innermost i = .ldIA) ∧
    (t.cpu.im ≠ s.cpu.im → innermost i = .im0 ∨ innermost i = .im1 ∨ innermost i = .im2) ∧
    (t.cpu.halted ≠ s.cpu.halted → innermost i = .halt) ∧
    (t.cpu.eiDelay ≠ s.cpu.eiDelay → innermost i = .ei) ∧
    (t.cpu.iff1 ≠ s.cpu.iff1 → innermost i = .di ∨ innermost i = .reti ∨ ∃ y, innermost i = .retn y) ∧
    (t.cpu.iff2 ≠ s.cpu.iff2 → innermost i = .di) ∧
    (bit t.cpu.r 7 ≠ bit s.cpu.r 7 → innermost i = .ldRefreshA) ∧
    (t.cpu.aAlt ≠ s.cpu.aAlt ∨ t.cpu.fAlt ≠ s.cpu.fAlt → innermost i = .exAfAf) ∧
    (t.cpu.bAlt ≠ s.cpu.bAlt ∨ t.cpu.cAlt ≠ s.cpu.cAlt ∨ t.cpu.dAlt ≠ s.cpu.dAlt ∨ t.cpu.eAlt ≠ s.cpu.eAlt ∨
      t.cpu.hAlt ≠ s.cpu.hAlt ∨ t.cpu.lAlt ≠ s.cpu.lAlt → innermost i = .exx)

/-- R40, R68, R79: while an instruction runs, no device but the ULA queue is reached: the clock, the keyboard, the ULA
latches, the beeper, the tape and the recorder are as before. -/
def Obligations.InstructionsReachNoDevice : Prop :=
  ∀ (i : Instr) (s t : State), exec i s = .next t →
    t = { s with
          cpu := t.cpu
          cursor := t.cursor
          mem := t.mem
          ula := { s.ula with queue := t.ula.queue, lastT := t.ula.lastT }
          fault := t.fault
          freeDraws := t.freeDraws } ∧
    t.cursor.tBase = s.cursor.tBase ∧ t.cursor.start = s.cursor.start

/-- R36, R407, R408: an instruction makes at most one port write, stamped inside its own T-states. -/
def Obligations.PortWriteStamps : Prop :=
  ∀ (i : Instr) (s t : State), exec i s = .next t → s.ula.queue = [] →
    s.ula.lastT ≤ s.cursor.tBase + s.cursor.t →
    t.ula.queue.length ≤ 1 ∧
    (∀ e ∈ t.ula.queue, s.cursor.tBase + s.cursor.t ≤ e.tState ∧ e.tState < s.cursor.tBase + t.cursor.t ∧
      e.tState = t.ula.lastT)

/-- R553, R612: two machines that differ in the beeper pipeline alone step alike: nothing the CPU, the ULA, the tape or
the recorder hold depends on the audio consumer.  The two have drawn equally many free values, and draws are then equal in
the model (log 4, log 17): the flags after a block I/O instruction and a file after a failed write agree because the free
values are taken equal, which is the model's and not the spec's promise. -/
def Obligations.AudioIsUnobservable : Prop :=
  (∀ s u : State, s.withoutAudio = u.withoutAudio →
    match step s, step u with
    | .next s', .next u' => s'.withoutAudio = u'.withoutAudio
    | .fault f, .fault g => f = g
    | .refused f, .refused g => f = g
    | _, _ => False) ∧
  (∀ s : State, s.audioSample.withoutAudio = s.withoutAudio)

/-! ## Registers and memory -/

/-- R21: the pairs are views of the 8-bit registers: a pair reads high half and low half, writing a pair writes both
halves and no other register, and writing a half changes the pair. -/
def Obligations.PairsAliasHalves : Prop :=
  (∀ c : Cpu, c.af = mkWord c.a c.f ∧ c.bc = mkWord c.b c.c ∧ c.de = mkWord c.d c.e ∧ c.hl = mkWord c.h c.l) ∧
  (∀ (s : State) (v : Word),
    (s.setBc v).cpu = { s.cpu with b := hiByte v, c := loByte v } ∧ (s.setBc v).cpu.bc = v ∧
    (s.setDe v).cpu = { s.cpu with d := hiByte v, e := loByte v } ∧ (s.setDe v).cpu.de = v ∧
    (s.setHl v).cpu = { s.cpu with h := hiByte v, l := loByte v } ∧ (s.setHl v).cpu.hl = v ∧
    (s.setAfPair v).cpu = { s.cpu with a := hiByte v, f := loByte v } ∧ (s.setAfPair v).cpu.af = v) ∧
  (∀ (c : Cpu) (v : Byte),
    (c.setReg8 .b v).bc = mkWord v c.c ∧ (c.setReg8 .c v).bc = mkWord c.b v ∧
    (c.setReg8 .d v).de = mkWord v c.e ∧ (c.setReg8 .e v).de = mkWord c.d v ∧
    (c.setReg8 .h v).hl = mkWord v c.l ∧ (c.setReg8 .l v).hl = mkWord c.h v ∧
    (c.setReg8 .a v).af = mkWord v c.f)

/-- R20, R23, R29, R92, R93, R104: the register file: what is written to a register, a pair, an index register or half of one
is read back there, and no other register and nothing outside the CPU changes; counting R up keeps its bit 7. -/
def Obligations.RegisterFile : Prop :=
  (∀ (c : Cpu) (r q : Reg8) (v : Byte), (c.setReg8 r v).reg8 q = if q = r then v else c.reg8 q) ∧
  (∀ (c : Cpu) (r : Reg8) (v : Byte),
    c.setReg8 r v =
      match r with
      | .b => { c with b := v }
      | .c => { c with c := v }
      | .d => { c with d := v }
      | .e => { c with e := v }
      | .h => { c with h := v }
      | .l => { c with l := v }
      | .a => { c with a := v }) ∧
  (∀ (s : State) (p : Rp) (v : Word),
    (s.setRp p v).cpu.rp p = v ∧
    s.setRp p v =
      { s with
        cpu :=
          match p with
          | .bc => { s.cpu with b := hiByte v, c := loByte v }
          | .de => { s.cpu with d := hiByte v, e := loByte v }
          | .hl => { s.cpu with h := hiByte v, l := loByte v }
          | .sp => { s.cpu with sp := v } }) ∧
  (∀ (s : State) (xy yx : Xy) (v : Word), (s.setXy xy v).cpu.xy yx = if yx = xy then v else s.cpu.xy yx) ∧
  (∀ (s : State) (xy : Xy) (v : Word),
    s.setXy xy v =
      { s with cpu := match xy with | .ix => { s.cpu with ix := v } | .iy => { s.cpu with iy := v } }) ∧
  (∀ (s : State) (xy yx : Xy) (k j : Half) (v : Byte),
    (s.setHalf xy k v).cpu.half yx j = if yx = xy ∧ j = k then v else s.cpu.half yx j) ∧
  (∀ (s : State) (xy : Xy) (k : Half) (v : Byte),
    s.setHalf xy k v = { s with cpu := { s.cpu with ix := (s.setHalf xy k v).cpu.ix, iy := (s.setHalf xy k v).cpu.iy } }) ∧
  (∀ (n : Nat) (r : Byte),
    (incRTimes n r).toNat % 128 = (r.toNat + n) % 128 ∧ bit (incRTimes n r) 7 = bit r 7)

/-- R61 .. R63: a byte write below 0x4000 changes nothing at all, any other stores its byte there and nowhere else; a word
is two bytes, the low one at the lower address; addresses wrap at 65,536; each byte of a word write is filtered by
itself. -/
def Obligations.MemoryAccess : Prop :=
  ∀ (s : State) (a v : Word), s.mem.wf = true →
    (∀ b : Byte, (a.toNat < 0x4000 → s.write8 a b = s) ∧ StoredByte s (s.write8 a b) a b ∧
      s.write8 a b = { s with mem := (s.write8 a b).mem }) ∧
    s.read16 a = mkWord (s.read8 (a + 1#16)) (s.read8 a) ∧
    s.write16 a v = (s.write8 a (loByte v)).write8 (a + 1#16) (hiByte v) ∧
    StoredWord s (s.write16 a v) a v ∧
    s.read16 0xFFFF#16 = mkWord (s.read8 0#16) (s.read8 0xFFFF#16) ∧
    ((s.write16 0x3FFF#16 v).read8 0x3FFF#16 = s.read8 0x3FFF#16 ∧
      (s.write16 0x3FFF#16 v).read8 0x4000#16 = hiByte v)

/-- R76: a push moves SP down by two and stores the word under it, low byte at the new SP; a pop reads the word at SP and
moves SP up by two; both wrap; what was pushed into RAM is popped. -/
def Obligations.Stack : Prop :=
  ∀ (s : State) (v : Word), s.mem.wf = true →
    ((s.push16 v).cpu = { s.cpu with sp := s.cpu.sp - 2#16 } ∧ StoredWord s (s.push16 v) (s.cpu.sp - 2#16) v ∧
      SameOutside s (s.push16 v) ∧ (s.push16 v).cursor = s.cursor) ∧
    (s.pop16.1 = mkWord (s.read8 (s.cpu.sp + 1#16)) (s.read8 s.cpu.sp) ∧
      s.pop16.2 = { s with cpu := { s.cpu with sp := s.cpu.sp + 2#16 } }) ∧
    (0x4000 ≤ (s.cpu.sp - 2#16).toNat → 0x4000 ≤ (s.cpu.sp - 1#16).toNat →
      (s.push16 v).pop16.1 = v ∧ (s.push16 v).pop16.2.cpu = s.cpu)

/-! ## 8-bit arithmetic and logic -/

/-- R190, R216: the helpers every result flag rests on. -/
def Obligations.FlagHelpers : Prop :=
  (∀ v : Byte, sz53 v = (v &&& 0xA8#8) ||| (if v = 0#8 then 0x40#8 else 0#8) ∧
    sz53p v = sz53 v ||| (if onesIn v % 2 = 0 then 0x04#8 else 0#8)) ∧
  (∀ v f : Byte,
    inc8 v f = (v + 1#8,
      (f &&& 0x01#8) ||| sz53 (v + 1#8) ||| (if (v + 1#8) &&& 0x0F#8 = 0#8 then 0x10#8 else 0#8) |||
        (if v + 1#8 = 0x80#8 then 0x04#8 else 0#8)) ∧
    dec8 v f = (v - 1#8,
      (f &&& 0x01#8) ||| 0x02#8 ||| sz53 (v - 1#8) |||
        (if (v - 1#8) &&& 0x0F#8 = 0x0F#8 then 0x10#8 else 0#8) ||| (if v - 1#8 = 0x7F#8 then 0x04#8 else 0#8)))

/-- R191, R194 .. R196: ADD and ADC, in every operand form: the sum of A, the operand and, for ADC, the carry goes to A
modulo 256; C and H are its carries out of bits 7 and 3, P/V the signed overflow, N is 0. -/
def Obligations.AddToAccumulator : Prop :=
  ∀ (s : State) (src : AluSource) (withCarry : Bool),
    let v := src.value s
    let c := if withCarry then bitNat (flagC s.cpu.f) else 0
    ∃ t, exec (aluInstr (if withCarry then .adc else .add) src) s = .next t ∧
      Took s t src.cost.1 src.cost.2.1 src.cost.2.2 ∧ OnlyAF s.cpu t.cpu ∧ SameBytes s t ∧ SameOutside s t ∧
      t.cpu.a.toNat = (s.cpu.a.toNat + v.toNat + c) % 256 ∧
      (flagC t.cpu.f = true ↔ 256 ≤ s.cpu.a.toNat + v.toNat + c) ∧
      (flagH t.cpu.f = true ↔ 16 ≤ s.cpu.a.toNat % 16 + v.toNat % 16 + c) ∧ flagN t.cpu.f = false ∧
      Overflow8 t.cpu.f (s.cpu.a.toInt + v.toInt + c) ∧ ResultFlags t.cpu.f t.cpu.a

/-- R192, R193, R197, R198, R202: SUB and SBC, in every operand form: the difference goes to A modulo 256, C and H are
borrows, P/V the signed overflow, N is 1.  CP sets the flags of SUB, with X and Y from the operand, and writes no
register. -/
def Obligations.SubtractFromAccumulator : Prop :=
  (∀ (s : State) (src : AluSource) (withBorrow : Bool),
    let v := src.value s
    let c := if withBorrow then bitNat (flagC s.cpu.f) else 0
    ∃ t, exec (aluInstr (if withBorrow then .sbc else .sub) src) s = .next t ∧
      Took s t src.cost.1 src.cost.2.1 src.cost.2.2 ∧ OnlyAF s.cpu t.cpu ∧ SameBytes s t ∧ SameOutside s t ∧
      (t.cpu.a.toNat : Int) = ((s.cpu.a.toNat : Int) - v.toNat - c) % 256 ∧
      (flagC t.cpu.f = true ↔ s.cpu.a.toNat < v.toNat + c) ∧
      (flagH t.cpu.f = true ↔ s.cpu.a.toNat % 16 < v.toNat % 16 + c) ∧ flagN t.cpu.f = true ∧
      Overflow8 t.cpu.f (s.cpu.a.toInt - v.toInt - c) ∧ ResultFlags t.cpu.f t.cpu.a) ∧
  (∀ (s : State) (src : AluSource),
    let v := src.value s
    ∃ t, exec (aluInstr .cp src) s = .next t ∧
      Took s t src.cost.1 src.cost.2.1 src.cost.2.2 ∧ OnlyF s.cpu t.cpu ∧ SameBytes s t ∧ SameOutside s t ∧
      (flagC t.cpu.f = true ↔ s.cpu.a.toNat < v.toNat) ∧ (flagZ t.cpu.f = true ↔ s.cpu.a = v) ∧
      (flagH t.cpu.f = true ↔ s.cpu.a.toNat % 16 < v.toNat % 16) ∧ flagN t.cpu.f = true ∧
      Overflow8 t.cpu.f (s.cpu.a.toInt - v.toInt) ∧ flagS t.cpu.f = bit (s.cpu.a - v) 7 ∧ FlagsXY t.cpu.f v)

/-- R193, R199 .. R201: AND, XOR and OR, in every operand form, bit by bit; P/V is the parity of the result, C and N are
0, H is 1 after AND and 0 after the others. -/
def Obligations.LogicOnAccumulator : Prop :=
  ∀ (s : State) (src : AluSource) (op : AluOp) (f : Bool → Bool → Bool),
    (op, f) ∈ [(AluOp.and, Bool.and), (AluOp.xor, Bool.xor), (AluOp.or, Bool.or)] →
    let v := src.value s
    ∃ t, exec (aluInstr op src) s = .next t ∧
      Took s t src.cost.1 src.cost.2.1 src.cost.2.2 ∧ OnlyAF s.cpu t.cpu ∧ SameBytes s t ∧ SameOutside s t ∧
      (∀ i, i < 8 → bit t.cpu.a i = f (bit s.cpu.a i) (bit v i)) ∧
      flagC t.cpu.f = false ∧ flagN t.cpu.f = false ∧ (flagH t.cpu.f = true ↔ op = .and) ∧
      ParityFlag t.cpu.f t.cpu.a ∧ ResultFlags t.cpu.f t.cpu.a

/-- R203 .. R210, R216: INC and DEC of a register, half an index register, or a byte of memory: one up or down modulo 256
where the operand stands (a byte in ROM stays), C kept, N the direction, H the carry or borrow of the low nibble, P/V the
step over the sign. -/
def Obligations.CountByte : Prop :=
  ∀ (s : State) (m : StepTarget) (decrement : Bool), s.mem.wf = true →
    let v := m.value s
    ∃ (t : State) (r : Byte), exec (if decrement then decInstr m else incInstr m) s = .next t ∧
      Took s t m.cost.1 m.cost.2.1 m.cost.2.2 ∧
      (r.toNat : Int) = ((v.toNat : Int) + (if decrement then -1 else 1)) % 256 ∧
      t.cpu = { m.into s r with f := t.cpu.f, pc := t.cpu.pc, r := t.cpu.r } ∧ StoredAt s t (m.address s) r ∧
      SameOutside s t ∧
      flagC t.cpu.f = flagC s.cpu.f ∧ flagN t.cpu.f = decrement ∧
      (flagH t.cpu.f = true ↔ v.toNat % 16 = if decrement then 0 else 15) ∧
      (flagP t.cpu.f = true ↔ v.toNat = if decrement then 0x80 else 0x7F) ∧ ResultFlags t.cpu.f r

/-- R211 .. R215: DAA, CPL, NEG (all eight encodings), CCF and SCF. -/
def Obligations.AccumulatorAndFlags : Prop :=
  (∀ s : State, ∃ t, exec .daa s = .next t ∧ Took s t 1 1 4 ∧ OnlyAF s.cpu t.cpu ∧ SameBytes s t ∧ SameOutside s t ∧
    (let low := s.cpu.a.toNat % 16
     let six : Nat := if flagH s.cpu.f = true ∨ 9 < low then 0x06 else 0
     let sixty : Nat := if flagC s.cpu.f = true ∨ 0x99 < s.cpu.a.toNat then 0x60 else 0
     (t.cpu.a.toNat : Int) =
        (if flagN s.cpu.f then (s.cpu.a.toNat : Int) - six - sixty else (s.cpu.a.toNat : Int) + six + sixty) % 256 ∧
      (flagC t.cpu.f = true ↔ sixty ≠ 0) ∧ flagN t.cpu.f = flagN s.cpu.f ∧
      (flagH t.cpu.f = true ↔ if flagN s.cpu.f then flagH s.cpu.f = true ∧ low < 6 else 9 < low)) ∧
    ParityFlag t.cpu.f t.cpu.a ∧ ResultFlags t.cpu.f t.cpu.a) ∧
  (∀ s : State, ∃ t, exec .cpl s = .next t ∧ Took s t 1 1 4 ∧ OnlyAF s.cpu t.cpu ∧ SameBytes s t ∧ SameOutside s t ∧
    t.cpu.a.toNat = 255 - s.cpu.a.toNat ∧ flagH t.cpu.f = true ∧ flagN t.cpu.f = true ∧
    flagC t.cpu.f = flagC s.cpu.f ∧ KeptSZP s.cpu.f t.cpu.f ∧ FlagsXY t.cpu.f t.cpu.a) ∧
  (∀ (s : State) (y : Fin 8), ∃ t, exec (.neg y) s = .next t ∧ Took s t 2 2 8 ∧ OnlyAF s.cpu t.cpu ∧ SameBytes s t ∧
    SameOutside s t ∧ t.cpu.a.toNat = (256 - s.cpu.a.toNat) % 256 ∧ (flagC t.cpu.f = true ↔ s.cpu.a ≠ 0#8) ∧
    (flagP t.cpu.f = true ↔ s.cpu.a = 0x80#8) ∧ (flagH t.cpu.f = true ↔ s.cpu.a.toNat % 16 ≠ 0) ∧
    flagN t.cpu.f = true ∧ ResultFlags t.cpu.f t.cpu.a) ∧
  (∀ s : State, ∃ t, exec .ccf s = .next t ∧ Took s t 1 1 4 ∧ OnlyF s.cpu t.cpu ∧ SameBytes s t ∧ SameOutside s t ∧
    flagH t.cpu.f = flagC s.cpu.f ∧ flagC t.cpu.f = !flagC s.cpu.f ∧ flagN t.cpu.f = false ∧
    KeptSZP s.cpu.f t.cpu.f ∧ FlagsXY t.cpu.f s.cpu.a) ∧
  (∀ s : State, ∃ t, exec .scf s = .next t ∧ Took s t 1 1 4 ∧ OnlyF s.cpu t.cpu ∧ SameBytes s t ∧ SameOutside s t ∧
    flagH t.cpu.f = false ∧ flagC t.cpu.f = true ∧ flagN t.cpu.f = false ∧
    KeptSZP s.cpu.f t.cpu.f ∧ FlagsXY t.cpu.f s.cpu.a)

/-- R195 .. R198, R211: what DAA is for: after ADC or SBC of two bytes of two decimal digits each, DAA leaves the decimal
digits of the sum or difference, and C the decimal carry or borrow. -/
def Obligations.DecimalAdjust : Prop :=
  ∀ (s : State) (n : Byte) (subtract : Bool), isBcd s.cpu.a → isBcd n →
    let exact : Int :=
      if subtract then (bcdValue s.cpu.a : Int) - bcdValue n - bitNat (flagC s.cpu.f)
      else (bcdValue s.cpu.a : Int) + bcdValue n + bitNat (flagC s.cpu.f)
    ∃ t u, exec (if subtract then .sbcN n else .adcN n) s = .next t ∧ exec .daa t = .next u ∧ isBcd u.cpu.a ∧
      (bcdValue u.cpu.a : Int) = exact % 100 ∧ (flagC u.cpu.f = true ↔ exact < 0 ∨ 100 ≤ exact)

/-! ## 16-bit arithmetic -/

/-- R230 .. R237: the 16-bit additions, subtractions and counts: results modulo 65,536; H and C the carries or borrows out
of bits 11 and 15; ADD keeps S, Z, P/V and takes X, Y from the high byte; ADC and SBC set S, Z (of all sixteen bits), P/V
(signed overflow) too; INC and DEC touch no flag. -/
def Obligations.Arithmetic16 : Prop :=
  (∀ (a b : Word) (f g : Byte) (r : Word), (r, g) = add16 a b f →
    r.toNat = (a.toNat + b.toNat) % 65536 ∧ (flagC g = true ↔ 65536 ≤ a.toNat + b.toNat) ∧
      (flagH g = true ↔ 4096 ≤ a.toNat % 4096 + b.toNat % 4096) ∧ flagN g = false ∧ KeptSZP f g ∧
      FlagsXY g (hiByte r)) ∧
  (∀ (s : State) (p : Rp), ∃ t, exec (.addHlRp p) s = .next t ∧ Took s t 1 1 11 ∧ SameBytes s t ∧ SameOutside s t ∧
    t.cpu = { s.cpu with h := t.cpu.h, l := t.cpu.l, f := t.cpu.f, pc := t.cpu.pc, r := t.cpu.r } ∧
    (t.cpu.hl, t.cpu.f) = add16 s.cpu.hl (s.cpu.rp p) s.cpu.f) ∧
  (∀ (s : State) (xy : Xy) (p : Rp), ∃ t, exec (.addXyRp xy p) s = .next t ∧ Took s t 2 2 15 ∧ SameBytes s t ∧
    SameOutside s t ∧
    t.cpu = { (s.setXy xy (t.cpu.xy xy)).cpu with f := t.cpu.f, pc := t.cpu.pc, r := t.cpu.r } ∧
    (t.cpu.xy xy, t.cpu.f) = add16 (s.cpu.xy xy) (if p = .hl then s.cpu.xy xy else s.cpu.rp p) s.cpu.f) ∧
  (∀ (s : State) (p : Rp),
    let b := s.cpu.rp p
    let c := bitNat (flagC s.cpu.f)
    ∃ t, exec (.adcHlRp p) s = .next t ∧ Took s t 2 2 15 ∧ SameBytes s t ∧ SameOutside s t ∧
    t.cpu = { s.cpu with h := t.cpu.h, l := t.cpu.l, f := t.cpu.f, pc := t.cpu.pc, r := t.cpu.r } ∧
    t.cpu.hl.toNat = (s.cpu.hl.toNat + b.toNat + c) % 65536 ∧
    (flagC t.cpu.f = true ↔ 65536 ≤ s.cpu.hl.toNat + b.toNat + c) ∧
    (flagH t.cpu.f = true ↔ 4096 ≤ s.cpu.hl.toNat % 4096 + b.toNat % 4096 + c) ∧ flagN t.cpu.f = false ∧
    Overflow16 t.cpu.f (s.cpu.hl.toInt + b.toInt + c) ∧ flagS t.cpu.f = bit t.cpu.h 7 ∧
    (flagZ t.cpu.f = true ↔ t.cpu.hl = 0#16) ∧ FlagsXY t.cpu.f t.cpu.h) ∧
  (∀ (s : State) (p : Rp),
    let b := s.cpu.rp p
    let c := bitNat (flagC s.cpu.f)
    ∃ t, exec (.sbcHlRp p) s = .next t ∧ Took s t 2 2 15 ∧ SameBytes s t ∧ SameOutside s t ∧
    t.cpu = { s.cpu with h := t.cpu.h, l := t.cpu.l, f := t.cpu.f, pc := t.cpu.pc, r := t.cpu.r } ∧
    (t.cpu.hl.toNat : Int) = ((s.cpu.hl.toNat : Int) - b.toNat - c) % 65536 ∧
    (flagC t.cpu.f = true ↔ s.cpu.hl.toNat < b.toNat + c) ∧
    (flagH t.cpu.f = true ↔ s.cpu.hl.toNat % 4096 < b.toNat % 4096 + c) ∧ flagN t.cpu.f = true ∧
    Overflow16 t.cpu.f (s.cpu.hl.toInt - b.toInt - c) ∧ flagS t.cpu.f = bit t.cpu.h 7 ∧
    (flagZ t.cpu.f = true ↔ t.cpu.hl = 0#16) ∧ FlagsXY t.cpu.f t.cpu.h) ∧
  (∀ (s : State) (p : Rp),
    Computes (.incRp p) s (s.setRp p (BitVec.ofNat 16 ((s.cpu.rp p).toNat + 1))).cpu 1 1 6 ∧
    Computes (.decRp p) s (s.setRp p (BitVec.ofNat 16 ((s.cpu.rp p).toNat + 65535))).cpu 1 1 6) ∧
  (∀ (s : State) (xy : Xy),
    Computes (.incXy xy) s (s.setXy xy (BitVec.ofNat 16 ((s.cpu.xy xy).toNat + 1))).cpu 2 2 10 ∧
    Computes (.decXy xy) s (s.setXy xy (BitVec.ofNat 16 ((s.cpu.xy xy).toNat + 65535))).cpu 2 2 10)

/-! ## Loads, the stack, the exchanges -/

/-- R130 .. R132, R135 .. R137, R145, R148, R149: the 8-bit loads of a register: that register takes the byte, no other
register and no flag changes.  Under an index prefix H and L are the halves of the index register when there is no memory
operand, and the real ones when there is. -/
def Obligations.LoadRegister : Prop :=
  ∀ s : State,
    (∀ r q : Reg8, Computes (.ldRR r q) s (s.cpu.setReg8 r (s.cpu.reg8 q)) 1 1 4) ∧
    (∀ (r : Reg8) (n : Byte), Computes (.ldRN r n) s (s.cpu.setReg8 r n) 2 1 7) ∧
    (∀ r : Reg8, Computes (.ldRMemHl r) s (s.cpu.setReg8 r (s.read8 s.cpu.hl)) 1 1 7) ∧
    Computes .ldAMemBc s { s.cpu with a := s.read8 s.cpu.bc } 1 1 7 ∧
    Computes .ldAMemDe s { s.cpu with a := s.read8 s.cpu.de } 1 1 7 ∧
    (∀ nn : Word, Computes (.ldAMemNn nn) s { s.cpu with a := s.read8 nn } 3 1 13) ∧
    (∀ (xy : Xy) (r : Reg8) (d : Byte),
      Computes (.ldRXyd xy r d) s (s.cpu.setReg8 r (s.read8 (indexedAddress s.cpu xy d))) 3 2 19) ∧
    (∀ (xy : Xy) (r q : Reg8),
      let v := match q with | .h => hiByte (s.cpu.xy xy) | .l => loByte (s.cpu.xy xy) | _ => s.cpu.reg8 q
      Computes (.ldRRXy xy r q) s
        (match r with
         | .h => (s.setXy xy (mkWord v (loByte (s.cpu.xy xy)))).cpu
         | .l => (s.setXy xy (mkWord (hiByte (s.cpu.xy xy)) v)).cpu
         | _ => s.cpu.setReg8 r v) 2 2 8) ∧
    (∀ (xy : Xy) (n : Byte),
      Computes (.ldXyHalfN xy .hi n) s (s.setXy xy (mkWord n (loByte (s.cpu.xy xy)))).cpu 3 2 11 ∧
      Computes (.ldXyHalfN xy .lo n) s (s.setXy xy (mkWord (hiByte (s.cpu.xy xy)) n)).cpu 3 2 11)

/-- R62, R133, R134, R138 .. R140, R146, R147: the 8-bit stores: the byte at the address takes the value unless it lies in
ROM, and nothing else changes. -/
def Obligations.StoreByteInstructions : Prop :=
  ∀ s : State, s.mem.wf = true →
    (∀ r : Reg8, StoresByte (.ldMemHlR r) s s.cpu.hl (s.cpu.reg8 r) 1 1 7) ∧
    (∀ n : Byte, StoresByte (.ldMemHlN n) s s.cpu.hl n 2 1 10) ∧
    StoresByte .ldMemBcA s s.cpu.bc s.cpu.a 1 1 7 ∧
    StoresByte .ldMemDeA s s.cpu.de s.cpu.a 1 1 7 ∧
    (∀ nn : Word, StoresByte (.ldMemNnA nn) s nn s.cpu.a 3 1 13) ∧
    (∀ (xy : Xy) (d : Byte), s.cpu.ea xy d = indexedAddress s.cpu xy d ∧
      (∀ r : Reg8, StoresByte (.ldXydR xy d r) s (s.cpu.ea xy d) (s.cpu.reg8 r) 3 2 19) ∧
      (∀ n : Byte, StoresByte (.ldXydN xy d n) s (s.cpu.ea xy d) n 4 2 19))

/-- R141 .. R144: the loads between A and the registers I and R: R is read and written after the instruction's own two
counts; `LD A,I` and `LD A,R` give IFF2 in P/V. -/
def Obligations.InterruptRegisterLoads : Prop :=
  (∀ (s : State) (refresh : Bool), ∃ t, exec (if refresh then .ldARefresh else .ldAI) s = .next t ∧ Took s t 2 2 9 ∧
    OnlyAF s.cpu t.cpu ∧ SameBytes s t ∧ SameOutside s t ∧ t.cpu.a = (if refresh then t.cpu.r else s.cpu.i) ∧
    ResultFlags t.cpu.f t.cpu.a ∧ flagP t.cpu.f = s.cpu.iff2 ∧ flagH t.cpu.f = false ∧ flagN t.cpu.f = false ∧
    flagC t.cpu.f = flagC s.cpu.f) ∧
  (∀ s : State, Computes .ldIA s { s.cpu with i := s.cpu.a } 2 2 9) ∧
  (∀ s : State, ∃ t, exec .ldRefreshA s = .next t ∧
    t.cpu = { s.cpu with r := s.cpu.a, pc := s.cpu.pc + 2#16 } ∧ SameBytes s t ∧ SameOutside s t ∧
    t.cursor = { s.cursor with t := s.cursor.t + 9 })

/-- R160 .. R165, R168 .. R171: the 16-bit loads: a pair or an index register takes the word, or the word is stored with
its low byte at the lower address, each byte lost if it lies in ROM. -/
def Obligations.LoadAndStoreWord : Prop :=
  (∀ (s : State) (nn : Word),
    let w := mkWord (s.read8 (nn + 1#16)) (s.read8 nn)
    (∀ p : Rp, Computes (.ldRpNn p nn) s (s.setRp p nn).cpu 3 1 10 ∧
      Computes (.ldRpMemNn p nn) s (s.setRp p w).cpu 4 2 20) ∧
    Computes (.ldHlMemNn nn) s { s.cpu with h := s.read8 (nn + 1#16), l := s.read8 nn } 3 1 16 ∧
    (∀ xy : Xy, Computes (.ldXyNn xy nn) s (s.setXy xy nn).cpu 4 2 14 ∧
      Computes (.ldXyMemNn xy nn) s (s.setXy xy w).cpu 4 2 20)) ∧
  (∀ s : State, Computes .ldSpHl s { s.cpu with sp := s.cpu.hl } 1 1 6 ∧
    ∀ xy : Xy, Computes (.ldSpXy xy) s { s.cpu with sp := s.cpu.xy xy } 2 2 10) ∧
  (∀ (s : State) (nn : Word), s.mem.wf = true →
    StoresWord (.ldMemNnHl nn) s s.cpu nn s.cpu.hl 3 1 16 ∧
    (∀ p : Rp, StoresWord (.ldMemNnRp p nn) s s.cpu nn (s.cpu.rp p) 4 2 20) ∧
    (∀ xy : Xy, StoresWord (.ldMemNnXy xy nn) s s.cpu nn (s.cpu.xy xy) 4 2 20))

/-- R76, R166, R167, R172, R173: PUSH and POP, of a pair or an index register; POP AF loads all of F. -/
def Obligations.PushAndPop : Prop :=
  (∀ s : State, s.mem.wf = true →
    (∀ p : Rp2, StoresWord (.pushRp2 p) s { s.cpu with sp := s.cpu.sp - 2#16 } (s.cpu.sp - 2#16) (s.cpu.rp2 p) 1 1 11) ∧
    (∀ xy : Xy, StoresWord (.pushXy xy) s { s.cpu with sp := s.cpu.sp - 2#16 } (s.cpu.sp - 2#16) (s.cpu.xy xy) 2 2 15)) ∧
  (∀ s : State,
    let hi := s.read8 (s.cpu.sp + 1#16)
    let lo := s.read8 s.cpu.sp
    Computes (.popRp2 .bc) s { s.cpu with b := hi, c := lo, sp := s.cpu.sp + 2#16 } 1 1 10 ∧
    Computes (.popRp2 .de) s { s.cpu with d := hi, e := lo, sp := s.cpu.sp + 2#16 } 1 1 10 ∧
    Computes (.popRp2 .hl) s { s.cpu with h := hi, l := lo, sp := s.cpu.sp + 2#16 } 1 1 10 ∧
    Computes (.popRp2 .af) s { s.cpu with a := hi, f := lo, sp := s.cpu.sp + 2#16 } 1 1 10 ∧
    Computes (.popXy .ix) s { s.cpu with ix := mkWord hi lo, sp := s.cpu.sp + 2#16 } 2 2 14 ∧
    Computes (.popXy .iy) s { s.cpu with iy := mkWord hi lo, sp := s.cpu.sp + 2#16 } 2 2 14)

/-- R174 .. R178: the exchanges. -/
def Obligations.Exchanges : Prop :=
  (∀ s : State,
    Computes .exDeHl s { s.cpu with d := s.cpu.h, e := s.cpu.l, h := s.cpu.d, l := s.cpu.e } 1 1 4 ∧
    Computes .exAfAf s { s.cpu with a := s.cpu.aAlt, f := s.cpu.fAlt, aAlt := s.cpu.a, fAlt := s.cpu.f } 1 1 4 ∧
    Computes .exx s
      { s.cpu with b := s.cpu.bAlt, c := s.cpu.cAlt, d := s.cpu.dAlt, e := s.cpu.eAlt, h := s.cpu.hAlt, l := s.cpu.lAlt,
                   bAlt := s.cpu.b, cAlt := s.cpu.c, dAlt := s.cpu.d, eAlt := s.cpu.e, hAlt := s.cpu.h,
                   lAlt := s.cpu.l } 1 1 4) ∧
  (∀ s : State, s.mem.wf = true →
    let hi := s.read8 (s.cpu.sp + 1#16)
    let lo := s.read8 s.cpu.sp
    StoresWord .exSpHl s { s.cpu with h := hi, l := lo } s.cpu.sp s.cpu.hl 1 1 19 ∧
    StoresWord (.exSpXy .ix) s { s.cpu with ix := mkWord hi lo } s.cpu.sp s.cpu.ix 2 2 23 ∧
    StoresWord (.exSpXy .iy) s { s.cpu with iy := mkWord hi lo } s.cpu.sp s.cpu.iy 2 2 23)

/-! ## Rotates, shifts and bits -/

/-- R250 .. R253, R264, R265: the rotates of A alone keep S, Z and P/V; RLD and RRD rotate the three digits of A's low
nibble and the byte at HL. -/
def Obligations.AccumulatorRotates : Prop :=
  (∀ (s : State) (left through : Bool),
    let out := if left then bit s.cpu.a 7 else bit s.cpu.a 0
    ∃ t, exec (accRotInstr left through) s = .next t ∧ Took s t 1 1 4 ∧ OnlyAF s.cpu t.cpu ∧ SameBytes s t ∧
      SameOutside s t ∧ ShiftedBy left s.cpu.a t.cpu.a (if through then flagC s.cpu.f else out) ∧
      flagC t.cpu.f = out ∧ flagH t.cpu.f = false ∧ flagN t.cpu.f = false ∧ KeptSZP s.cpu.f t.cpu.f ∧
      FlagsXY t.cpu.f t.cpu.a) ∧
  (∀ (s : State) (left : Bool), s.mem.wf = true →
    let m := (s.read8 s.cpu.hl).toNat
    let digit := s.cpu.a.toNat % 16
    ∃ (t : State) (v : Byte), exec (if left then .rld else .rrd) s = .next t ∧ Took s t 2 2 18 ∧ OnlyAF s.cpu t.cpu ∧
      StoredByte s t s.cpu.hl v ∧ SameOutside s t ∧
      v.toNat = (if left then m % 16 * 16 + digit else digit * 16 + m / 16) ∧
      t.cpu.a.toNat = s.cpu.a.toNat / 16 * 16 + (if left then m / 16 else m % 16) ∧
      flagC t.cpu.f = flagC s.cpu.f ∧ flagH t.cpu.f = false ∧ flagN t.cpu.f = false ∧
      ParityFlag t.cpu.f t.cpu.a ∧ ResultFlags t.cpu.f t.cpu.a)

/-- R254 .. R263, R275: the eight rotates and shifts, in all four operand forms: the bits move by one, the bit that leaves
goes to C, P/V is the parity of the result; the register-copy form writes the byte and the register. -/
def Obligations.RotateAndShift : Prop :=
  ∀ (s : State) (op : RotOp) (m : BitTarget), s.mem.wf = true →
    let v := m.value s
    ∃ (t : State) (r : Byte), exec (rotInstr op m) s = .next t ∧ Took s t m.cost.1 m.cost.2.1 m.cost.2.2 ∧
      ShiftedBy op.left v r (op.fill v (flagC s.cpu.f)) ∧
      t.cpu = { s.cpu.withReg m.register r with f := t.cpu.f, pc := t.cpu.pc, r := t.cpu.r } ∧
      StoredAt s t (m.address s) r ∧ SameOutside s t ∧
      flagC t.cpu.f = (if op.left then bit v 7 else bit v 0) ∧ flagH t.cpu.f = false ∧ flagN t.cpu.f = false ∧
      ParityFlag t.cpu.f r ∧ ResultFlags t.cpu.f r

/-- R270 .. R275: BIT tests one bit and writes F alone, X and Y from the operand or, indexed, from the high byte of the
address; SET and RES write that one bit, in all four operand forms, and no flag. -/
def Obligations.TestSetResetBit : Prop :=
  (∀ (s : State) (y z : Fin 8) (i : Instr) (v xySource : Byte) (cost : Nat × Nat × Nat),
    ((∃ r, i = .bitR y r ∧ v = s.cpu.reg8 r ∧ xySource = v ∧ cost = (2, 2, 8)) ∨
      (i = .bitMemHl y ∧ v = s.read8 s.cpu.hl ∧ xySource = v ∧ cost = (2, 2, 12)) ∨
      (∃ xy d, i = .bitXyd xy d y z ∧ v = s.read8 (s.cpu.ea xy d) ∧ xySource = hiByte (s.cpu.ea xy d) ∧
        cost = (4, 2, 20))) →
    ∃ t, exec i s = .next t ∧ Took s t cost.1 cost.2.1 cost.2.2 ∧ OnlyF s.cpu t.cpu ∧ SameBytes s t ∧ SameOutside s t ∧
      flagZ t.cpu.f = !bit v y.val ∧ flagP t.cpu.f = !bit v y.val ∧
      flagS t.cpu.f = (bit v 7 && decide (y.val = 7)) ∧ flagH t.cpu.f = true ∧ flagN t.cpu.f = false ∧
      flagC t.cpu.f = flagC s.cpu.f ∧ FlagsXY t.cpu.f xySource) ∧
  (∀ (s : State) (y : Fin 8) (m : BitTarget) (set : Bool), s.mem.wf = true →
    ∃ (t : State) (r : Byte), exec (if set then setInstr y m else resInstr y m) s = .next t ∧
      Took s t m.cost.1 m.cost.2.1 m.cost.2.2 ∧
      (∀ j, j < 8 → bit r j = if j = y.val then set else bit (m.value s) j) ∧
      t.cpu = { s.cpu.withReg m.register r with pc := t.cpu.pc, r := t.cpu.r } ∧
      StoredAt s t (m.address s) r ∧ SameOutside s t)

/-! ## Control transfer -/

/-- R290 .. R300: the jumps: a condition that fails leaves PC after the instruction; relative targets count from there and
wrap; DJNZ counts B and jumps unless it reaches zero, touching no flag. -/
def Obligations.Jumps : Prop :=
  ∀ s : State,
    (∀ nn : Word, JumpsTo (.jpNn nn) s nn s.cpu 1 10) ∧
    (∀ (cc : Cond) (nn : Word),
      (condMeans cc s.cpu.f → JumpsTo (.jpCcNn cc nn) s nn s.cpu 1 10) ∧
      (¬condMeans cc s.cpu.f → JumpsTo (.jpCcNn cc nn) s (s.cpu.pc + 3#16) s.cpu 1 10)) ∧
    (∀ e : Byte, JumpsTo (.jr e) s (relTarget s.cpu.pc e) s.cpu 1 12) ∧
    (∀ (zero set : Bool) (e : Byte),
      ((if zero then flagZ s.cpu.f else flagC s.cpu.f) = set →
        JumpsTo (jrInstr zero set e) s (relTarget s.cpu.pc e) s.cpu 1 12) ∧
      ((if zero then flagZ s.cpu.f else flagC s.cpu.f) ≠ set →
        JumpsTo (jrInstr zero set e) s (s.cpu.pc + 2#16) s.cpu 1 7)) ∧
    JumpsTo .jpHl s s.cpu.hl s.cpu 1 4 ∧
    (∀ xy : Xy, JumpsTo (.jpXy xy) s (s.cpu.xy xy) s.cpu 2 8) ∧
    (∀ e : Byte,
      (s.cpu.b ≠ 1#8 → JumpsTo (.djnz e) s (relTarget s.cpu.pc e) { s.cpu with b := s.cpu.b - 1#8 } 1 13) ∧
      (s.cpu.b = 1#8 → JumpsTo (.djnz e) s (s.cpu.pc + 2#16) { s.cpu with b := 0#8 } 1 8))

/-- R301 .. R307: calls push the address of the byte after the instruction, returns take PC from the stack; a condition
that fails moves PC only; RETI and RETN (all seven encodings) copy IFF2 to IFF1. -/
def Obligations.CallsAndReturns : Prop :=
  (∀ s : State, s.mem.wf = true →
    (∀ nn : Word, CallsTo (.callNn nn) s nn (s.cpu.pc + 3#16) 1 17) ∧
    (∀ (cc : Cond) (nn : Word),
      (condMeans cc s.cpu.f → CallsTo (.callCcNn cc nn) s nn (s.cpu.pc + 3#16) 1 17) ∧
      (¬condMeans cc s.cpu.f → JumpsTo (.callCcNn cc nn) s (s.cpu.pc + 3#16) s.cpu 1 10)) ∧
    (∀ y : Fin 8, CallsTo (.rst y) s (BitVec.ofNat 16 (8 * y.val)) (s.cpu.pc + 1#16) 1 11)) ∧
  (∀ s : State,
    let back := mkWord (s.read8 (s.cpu.sp + 1#16)) (s.read8 s.cpu.sp)
    let popped : Cpu := { s.cpu with sp := s.cpu.sp + 2#16 }
    JumpsTo .ret s back popped 1 10 ∧
    (∀ cc : Cond,
      (condMeans cc s.cpu.f → JumpsTo (.retCc cc) s back popped 1 11) ∧
      (¬condMeans cc s.cpu.f → JumpsTo (.retCc cc) s (s.cpu.pc + 1#16) s.cpu 1 5)) ∧
    JumpsTo .reti s back { popped with iff1 := s.cpu.iff2 } 2 14 ∧
    (∀ y : Fin 8, JumpsTo (.retn y) s back { popped with iff1 := s.cpu.iff2 } 2 14))

/-! ## Block instructions -/

/-- R320 .. R324: LDI, LDD, LDIR and LDDR: one byte from HL to DE, the pairs counted, P/V says BC is not used up, X and Y
are bits 3 and 1 of A plus the byte; a repeating one stays on its own two bytes, 5 T-states longer, while BC is not 0. -/
def Obligations.BlockTransfer : Prop :=
  ∀ (s : State) (ascending repeating : Bool), s.mem.wf = true →
    let v := s.read8 s.cpu.hl
    let again := repeating && decide (s.cpu.bc ≠ 1#16)
    ∃ t, exec (blockLdInstr ascending repeating) s = .next t ∧
      TookTo s t (if again then s.cpu.pc else s.cpu.pc + 2#16) 2 (if again then 21 else 16) ∧
      t.cpu = { s.cpu with b := t.cpu.b, c := t.cpu.c, d := t.cpu.d, e := t.cpu.e, h := t.cpu.h, l := t.cpu.l,
                           f := t.cpu.f, pc := t.cpu.pc, r := t.cpu.r } ∧
      t.cpu.bc = s.cpu.bc - 1#16 ∧ t.cpu.de = stepWord ascending s.cpu.de ∧ t.cpu.hl = stepWord ascending s.cpu.hl ∧
      StoredByte s t s.cpu.de v ∧ SameOutside s t ∧
      flagS t.cpu.f = flagS s.cpu.f ∧ flagZ t.cpu.f = flagZ s.cpu.f ∧ flagC t.cpu.f = flagC s.cpu.f ∧
      flagH t.cpu.f = false ∧ flagN t.cpu.f = false ∧ (flagP t.cpu.f = true ↔ s.cpu.bc ≠ 1#16) ∧
      flagX t.cpu.f = bit (s.cpu.a + v) 3 ∧ flagY t.cpu.f = bit (s.cpu.a + v) 1

/-- R320, R325 .. R328: CPI, CPD, CPIR and CPDR: A is compared with the byte at HL, C kept, X and Y bits 3 and 1 of the
difference less the half-borrow; a repeating one goes on while BC is not 0 and the byte was not found. -/
def Obligations.BlockSearch : Prop :=
  ∀ (s : State) (ascending repeating : Bool),
    let v := s.read8 s.cpu.hl
    let again := repeating && decide (s.cpu.bc ≠ 1#16) && decide (s.cpu.a ≠ v)
    let half : Nat := if s.cpu.a.toNat % 16 < v.toNat % 16 then 1 else 0
    let n := s.cpu.a - v - BitVec.ofNat 8 half
    ∃ t, exec (blockCpInstr ascending repeating) s = .next t ∧
      TookTo s t (if again then s.cpu.pc else s.cpu.pc + 2#16) 2 (if again then 21 else 16) ∧
      t.cpu = { s.cpu with b := t.cpu.b, c := t.cpu.c, h := t.cpu.h, l := t.cpu.l, f := t.cpu.f, pc := t.cpu.pc,
                           r := t.cpu.r } ∧
      t.cpu.bc = s.cpu.bc - 1#16 ∧ t.cpu.hl = stepWord ascending s.cpu.hl ∧ SameBytes s t ∧ SameOutside s t ∧
      flagC t.cpu.f = flagC s.cpu.f ∧ flagN t.cpu.f = true ∧ (flagZ t.cpu.f = true ↔ s.cpu.a = v) ∧
      flagS t.cpu.f = bit (s.cpu.a - v) 7 ∧ (flagH t.cpu.f = true ↔ half = 1) ∧
      (flagP t.cpu.f = true ↔ s.cpu.bc ≠ 1#16) ∧ flagX t.cpu.f = bit n 3 ∧ flagY t.cpu.f = bit n 1

/-- R320, R329 .. R337: the block I/O instructions: INI and IND read port BC before B counts and store at HL, OUTI and OUTD
write the byte at HL to port BC after B has counted, 12 T-states in; Z says B reached 0, N is 1, C stays, and of the other
five flags nothing is said: one free value is drawn. -/
def Obligations.BlockInputOutput : Prop :=
  ∀ (s : State) (input ascending repeating : Bool), s.mem.wf = true →
    let again := repeating && decide (s.cpu.b ≠ 1#8)
    ∃ t, exec (if input then blockInInstr ascending repeating else blockOutInstr ascending repeating) s = .next t ∧
      TookTo s t (if again then s.cpu.pc else s.cpu.pc + 2#16) 2 (if again then 21 else 16) ∧
      t.cpu = { s.cpu with b := s.cpu.b - 1#8, h := t.cpu.h, l := t.cpu.l, f := t.cpu.f, pc := t.cpu.pc,
                           r := t.cpu.r } ∧
      t.cpu.hl = stepWord ascending s.cpu.hl ∧
      (if input then StoredByte s t s.cpu.hl (s.ioRead s.cpu.bc) ∧ t.ula = s.ula
       else SameBytes s t ∧ PortWrote s t (mkWord (s.cpu.b - 1#8) s.cpu.c) (s.read8 s.cpu.hl) 12) ∧
      t = { s with cpu := t.cpu, cursor := t.cursor, mem := t.mem, ula := t.ula, freeDraws := s.freeDraws + 1 } ∧
      (flagZ t.cpu.f = true ↔ s.cpu.b = 1#8) ∧ flagN t.cpu.f = true ∧ flagC t.cpu.f = flagC s.cpu.f

/-- R320, R322, R540: a whole LDIR: with interrupts off and nothing queued, `n` steps on an LDIR in memory copy `n` bytes
from HL to DE in RAM, in ascending order, when source, target and the instruction itself do not overlap; every other byte
stays, the pairs end where the rule says and the clock has advanced by 21 T-states a step, 16 for the last. -/
def Obligations.LdirCopies : Prop :=
  ∀ (s : State) (n : Nat), s.running → s.schedule = [] → s.mem.wf = true → s.cpu.halted = false →
    s.cpu.iff1 = false → s.cpu.eiDelay = false → s.read8 s.cpu.pc = 0xED#8 → s.read8 (s.cpu.pc + 1#16) = 0xB0#8 →
    0 < n → n < 65536 → s.cpu.bc = BitVec.ofNat 16 n →
    (∀ k, k < n → 0x4000 ≤ (s.cpu.de + BitVec.ofNat 16 k).toNat) →
    (∀ k, k < n → s.cpu.de + BitVec.ofNat 16 k ≠ s.cpu.pc ∧ s.cpu.de + BitVec.ofNat 16 k ≠ s.cpu.pc + 1#16) →
    (∀ j k, j < n → k < n → s.cpu.de + BitVec.ofNat 16 j ≠ s.cpu.hl + BitVec.ofNat 16 k) →
    ∃ t, stepTimes n s = some t ∧
      (∀ k, k < n → t.read8 (s.cpu.de + BitVec.ofNat 16 k) = s.read8 (s.cpu.hl + BitVec.ofNat 16 k)) ∧
      (∀ x, (∀ k, k < n → x ≠ s.cpu.de + BitVec.ofNat 16 k) → t.read8 x = s.read8 x) ∧
      t.cpu = { s.cpu with b := 0#8, c := 0#8, d := t.cpu.d, e := t.cpu.e, h := t.cpu.h, l := t.cpu.l, f := t.cpu.f,
                           r := incRTimes (2 * n) s.cpu.r, pc := s.cpu.pc + 2#16 } ∧
      t.cpu.de = s.cpu.de + BitVec.ofNat 16 n ∧ t.cpu.hl = s.cpu.hl + BitVec.ofNat 16 n ∧ flagP t.cpu.f = false ∧
      t.clock = s.clock + 21 * (n - 1) + 16

/-! ## Ports, the ULA, CPU control -/

/-- R350 .. R352, R400, R402, R403, R405: the host's SetKey clears a key's bit when it is pressed and sets it when it is
released, and changes nothing else; an odd port reads 0xFF; an even one the keyboard rows whose address bit is 0, column by
column, the EAR level (1 with no tape) in bit 6, and 1 in bits 5 and 7; the input instructions put that into their register
and flags. -/
def Obligations.PortInput : Prop :=
  (∀ (s : State) (port : Word),
    (port.toNat % 2 = 1 → s.ioRead port = 0xFF#8) ∧
    (port.toNat % 2 = 0 →
      bit (s.ioRead port) 5 = true ∧ bit (s.ioRead port) 7 = true ∧
      bit (s.ioRead port) 6 = (if s.tape.source.isSome then s.tape.earLevel else true) ∧
      ∀ j, j < 5 → (bit (s.ioRead port) j = true ↔
        ∀ i : Fin 8, port.getLsbD (8 + i.val) = false → bit s.keys[i] j = true))) ∧
  (∀ (s : State) (n : Byte),
    Computes (.inAN n) s { s.cpu with a := s.ioRead (mkWord s.cpu.a n) } 2 1 11) ∧
  (∀ (s : State) (dest : Option Reg8),
    let v := s.ioRead s.cpu.bc
    ∃ t, exec (match dest with | some r => .inRC r | none => .inFC) s = .next t ∧ Took s t 2 2 12 ∧
      t.cpu = { s.cpu.withReg dest v with f := t.cpu.f, pc := t.cpu.pc, r := t.cpu.r } ∧ SameBytes s t ∧
      SameOutside s t ∧ flagC t.cpu.f = flagC s.cpu.f ∧ flagH t.cpu.f = false ∧ flagN t.cpu.f = false ∧
      ParityFlag t.cpu.f v ∧ ResultFlags t.cpu.f v) ∧
  (∀ (s : State) (row : Fin 8) (column : Fin 5) (pressed : Bool), s.running →
    ∃ keys : Vector Byte 8, RequestDone (.setKey row column pressed) s { s with keys := keys } ∧
      ∀ (i : Fin 8) (j : Nat), j < 8 →
        bit keys[i] j = if i = row ∧ j = column.val then !pressed else bit s.keys[i] j)

/-- R122, R353 .. R355, R401, R406, R407: the output instructions write no register and no memory; an even port queues the
byte for the ULA with its time inside the instruction, an odd one drops it. -/
def Obligations.PortOutput : Prop :=
  ∀ (s : State) (i : Instr) (port : Word) (v : Byte) (bytes fetches at_ total : Nat),
    ((∃ n, i = .outNA n ∧ port = mkWord s.cpu.a n ∧ v = s.cpu.a ∧ bytes = 2 ∧ fetches = 1 ∧ at_ = 7 ∧ total = 11) ∨
      (∃ r, i = .outCR r ∧ port = s.cpu.bc ∧ v = s.cpu.reg8 r ∧ bytes = 2 ∧ fetches = 2 ∧ at_ = 8 ∧ total = 12) ∨
      (i = .outC0 ∧ port = s.cpu.bc ∧ v = 0#8 ∧ bytes = 2 ∧ fetches = 2 ∧ at_ = 8 ∧ total = 12)) →
    ∃ t, exec i s = .next t ∧ Took s t bytes fetches total ∧ OnlyPcR s.cpu t.cpu ∧ PortWrote s t port v at_ ∧
      t = { s with cpu := t.cpu, cursor := t.cursor, ula := t.ula }

/-- R409: the queue is worked off oldest first: the border is bits 2..0, a change of bit 4 is pushed to the beeper with the
write's time, bit 3 is the MIC level the recorder hears of; then the queue is empty. -/
def Obligations.UlaEventsProcessed : Prop :=
  (∀ s : State, s.ula.queue = [] → s.processEvents = s) ∧
  (∀ (s : State) (e : UlaEvent) (rest : List UlaEvent), s.ula.queue = e :: rest →
    s.processEvents =
      State.processEvents
        { s with
          ula := { border := e.value.extractLsb' 0 3, beeperLevel := bit e.value 4, micLevel := bit e.value 3,
                   queue := rest, lastT := s.ula.lastT }
          beeper :=
            if bit e.value 4 = s.ula.beeperLevel then s.beeper
            else s.beeper.push s.config.sampleRate e.tState (bit e.value 4)
          recorder := s.recorder.micEvent e.tState (bit e.value 3) }) ∧
  (∀ (s : State) (q : List UlaEvent) (e : UlaEvent), s.ula.queue = q ++ [e] →
    s.processEvents.ula =
      { border := e.value.extractLsb' 0 3, beeperLevel := bit e.value 4, micLevel := bit e.value 3, queue := [],
        lastT := s.ula.lastT })

/-- R356 .. R358, R360 .. R362: NOP, HALT (PC stays on it), DI, the interrupt modes.  R103, R107, R363: what stands behind an
index prefix byte runs as if without it, one byte, one count of R and 4 T-states later.  That a bare CB, ED, DD or FD is an
instruction that costs one byte, one count of R and 4 T-states is the model's choice (log 19, DESIGN CHOICE): R103 and R111
give those rows no effect of their own. -/
def Obligations.CpuControlAndPrefixes : Prop :=
  ∀ s : State,
    Computes .nop s s.cpu 1 1 4 ∧
    JumpsTo .halt s s.cpu.pc { s.cpu with halted := true } 1 4 ∧
    Computes .di s { s.cpu with iff1 := false, iff2 := false } 1 1 4 ∧
    Computes .im0 s { s.cpu with im := .im0 } 2 2 8 ∧
    Computes .im1 s { s.cpu with im := .im1 } 2 2 8 ∧
    Computes .im2 s { s.cpu with im := .im2 } 2 2 8 ∧
    Computes .prefixCb s s.cpu 1 1 4 ∧ Computes .prefixEd s s.cpu 1 1 4 ∧
    (∀ xy : Xy,
      exec (.prefixXy xy) s = .next
        { s with
          cpu := { s.cpu with pc := s.cpu.pc + 1#16, r := incR s.cpu.r }
          cursor := { s.cursor with t := s.cursor.t + 4, lastXy := some xy } } ∧
      ∀ (i : Instr) (outer : Instr), outer ∈ [.xpMain xy i, .xpEd xy i, .xpXp xy i] →
        ∃ p t, exec (.prefixXy xy) s = .next p ∧ exec i p = .next t ∧ exec outer s = .next t)

/-! ## The devices -/

/-- R431 .. R433, R435 .. R439: one sample of the audio consumer: the position moves one sample on, the events up to it leave the
ring and the last of them gives the level; after 512 samples on an empty ring the output is 0 and the filter rests, else it
is the filter's output, cut to 16 bits.  A push within the tolerance appends, and one more than 8 samples behind the
position first rewinds the pipeline (R435); a full ring of 8192 drops its oldest event (R436).  Times are counted in units of
1/SAMPLE_RATE T-states, as R431 allows: an event at T-state `t` stands at `t * rate`, a sample is 3,500,000 units (log 13,
DEDUCED).  The audio consumer's action (R437) leaves the pipeline `nextSample` gives and hands out its sample while the
audio device is open, and does nothing while it is closed (R444); the action is one queued on the schedule, and the device's
state and the samples handed out are fields of the model's own (log 8, log 9, DESIGN CHOICE). -/
def Obligations.BeeperPipeline : Prop :=
  (∀ (rate : Nat) (b : Beeper),
    let limit := b.position + 3500000
    let due := b.ring.takeWhile (fun e => decide (e.tState * rate ≤ limit))
    let level := match due.getLast? with | some e => e.level | none => b.outLevel
    let idle := if b.ring = [] then b.idleSamples + 1 else 0
    let raw : Int := if level then 2000 else -2000
    let y : Rat := (raw : Rat) - (b.xPrev : Rat) + 199 / 200 * b.yPrev
    let silent := 512 ≤ idle
    b.nextSample rate =
      (if silent then 0 else max (-32768) (min 32767 (if 0 ≤ y then ⌊y⌋ else ⌈y⌉)),
        { ring := b.ring.dropWhile (fun e => decide (e.tState * rate ≤ limit)), writerCursor := b.writerCursor,
          position := limit, outLevel := level, xPrev := raw, yPrev := if silent then 0 else y,
          idleSamples := idle })) ∧
  (∀ (rate t : Nat) (b : Beeper) (level : Bool), b.position ≤ t * rate + 8 * 3500000 →
    b.push rate t level =
      { b with
        ring := (if b.ring.length = 8192 then b.ring.tail else b.ring) ++ [{ tState := t, level := level }]
        writerCursor := max b.writerCursor t }) ∧
  (∀ (rate t : Nat) (b : Beeper) (level : Bool), t * rate + 8 * 3500000 < b.position →
    b.push rate t level =
      { ring := [{ tState := t, level := level }], writerCursor := t, position := t * rate, outLevel := b.outLevel,
        xPrev := if b.outLevel then 2000 else -2000, yPrev := 0, idleSamples := 0 }) ∧
  (∀ s : State, s.running →
    (s.audioOpen = true →
      RequestAnswers .audioSample s
        { s with
          beeper := (s.beeper.nextSample s.config.sampleRate).2
          audioOut := s.audioOut ++ [(s.beeper.nextSample s.config.sampleRate).1] }) ∧
    (s.audioOpen = false → RequestAnswers .audioSample s s))

/-- R439, R445: the filter never puts out more than twice the amplitude, from reset on and whatever the program, the host
and the audio consumer do: an invariant of every step, and a bound on every sample it hands out. -/
def Obligations.SampleBound : Prop :=
  State.reset.beeper.FilterOk ∧
  ∀ s t : State, step s = .next t → s.beeper.FilterOk →
    t.beeper.FilterOk ∧ ∀ x ∈ t.audioOut, x ∈ s.audioOut ∨ (-4000 ≤ x ∧ x ≤ 4000)

/-- R470 .. R472, R478, R479, R486, R546: the tape controls, each a request of the host at the moment `clock`; seek, refused
on a tape that is not WAV; and resuming a pause at the same moment is as if neither had been. -/
def Obligations.TapeControls : Prop :=
  (∀ (t : Tape) (now : Nat), t.source = none →
    t.start now = t ∧ t.pause now = t ∧ t.resume now = t ∧ t.rewind = t ∧ t.update now = t) ∧
  (∀ (t : Tape) (w : Waveform) (now : Nat) (p : U32) (rest : List U32), t.source = some w → w.pulses = p :: rest →
    t.start now =
      { source := some w, playing := true, cursor := 0, earLevel := w.initialLevel, nextTransition := now + p.toNat,
        remaining := 0, position := 0, done := false }) ∧
  (∀ (t : Tape) (w : Waveform) (now : Nat), t.source = some w → w.pulses = [] →
    t.start now =
      { t with playing := false, cursor := 0, earLevel := w.initialLevel, remaining := 0, position := 0, done := true }) ∧
  (∀ (t : Tape) (w : Waveform), t.source = some w →
    t.rewind = { Tape.reset (some w) with nextTransition := t.nextTransition }) ∧
  (∀ (t : Tape) (w : Waveform) (now : Nat), t.source = some w → t.playing = true → (t.update now).playing = true →
    t.pause now =
      { t.update now with playing := false, remaining := (t.update now).nextTransition - now } ∧
    0 < (t.pause now).remaining) ∧
  (∀ (t : Tape) (now later : Nat), t.source.isSome = true → t.playing = false → t.done = false → 0 < t.remaining →
    t.resume later = { t with playing := true, nextTransition := later + t.remaining, remaining := 0 } ∧
    t.pause now = t) ∧
  (∀ (t : Tape) (now : Nat), t.source.isSome = true → t.playing = true → t.remaining = 0 → t.done = false →
    t.update now = t → (t.pause now).resume now = t) ∧
  (∀ (t : Tape) (now : Nat), t.playing = false → t.pause now = t) ∧
  (∀ (t : Tape) (now : Nat), t.playing = true → (t.update now).playing = false → t.pause now = t.update now) ∧
  (∀ (t : Tape) (now : Nat), t.playing = true ∨ t.done = true ∨ t.remaining = 0 → t.resume now = t) ∧
  (∀ s : State, s.running →
    RequestDone .tapeStart s { s with tape := s.tape.start s.clock } ∧
    RequestDone .tapePause s { s with tape := s.tape.pause s.clock } ∧
    RequestDone .tapeResume s { s with tape := s.tape.resume s.clock } ∧
    RequestDone .tapeRewind s { s with tape := s.tape.rewind } ∧
    ∀ at_ : Nat,
      (s.tape.source = none → RequestDone (.tapeSeek at_) s s) ∧
      ∀ w : Waveform, s.tape.source = some w →
        (w.origin ≠ .wav → RequestRefused (.tapeSeek at_) s
          { kind := .tapeStateConflict, subsystem := .tape, path := some s.config.tapeInputPath }) ∧
        (w.origin = .wav → w.durations.sum ≤ at_ → RequestDone (.tapeSeek at_) s
          { s with
            tape := { s.tape with
              cursor := w.pulses.length, playing := false, done := true, remaining := 0,
              earLevel := w.initialLevel ^^ decide (w.pulses.length % 2 = 1), position := w.durations.sum } }) ∧
        (∀ k, w.origin = .wav → (w.durations.take k).sum ≤ at_ → at_ < (w.durations.take (k + 1)).sum →
          RequestDone (.tapeSeek at_) s
            { s with
              tape := { s.tape with
                cursor := k, playing := false, done := false, remaining := (w.durations.take (k + 1)).sum - at_,
                earLevel := w.initialLevel ^^ decide (k % 2 = 1), position := at_ } }))

/-- R470, R480, R482: playback is a ratchet: from a start, the level at any later moment is the initial level changed once
for every pulse that has ended by then, every pulse having a positive duration (R44), and how often the tape was updated in
between makes no difference. -/
def Obligations.TapePlayback : Prop :=
  (∀ (t : Tape) (a b : Nat), a ≤ b → (t.update a).update b = t.update b) ∧
  (∀ (t : Tape) (w : Waveform) (start now : Nat), t.source = some w → w.pulses ≠ [] →
    let ended := ((List.range w.pulses.length).filter (fun k => decide (start + w.cum (k + 1) ≤ now))).length
    let u := (t.start start).update now
    (∀ p ∈ w.pulses, p ≠ 0#32) → start ≤ now →
    u.cursor = ended ∧ u.earLevel = (w.initialLevel ^^ decide (ended % 2 = 1)) ∧
      u.playing = decide (ended < w.pulses.length) ∧ u.done = decide (ended = w.pulses.length) ∧
      u.position = min (now - start) (w.cum w.pulses.length))

/-- R461, R462: exactly the concatenations of records are TAP files, and exactly the signature, two version bytes and
standard-speed blocks are TZX files; their blocks are read in order; an unknown TZX block is named with its offset.  R464: a
WAV waveform is the runs of equal sign, each rounded to the nearest T-state and at least 1.  R44: a pulse is a 32-bit number
of 1 or more, exact where the duration fits; what a longer run of a WAV file becomes is a free value (log 21).  R465: how a
block list becomes pulses, each of which fits.  R488, R521: the pulses made of one block of data, whatever its flag, its bytes and the pause behind it, are decoded
by the recorder to that very block; a block of `L` bytes makes 8063 or 3223 pilot pulses, two for the sync and sixteen a
byte. -/
def Obligations.TapeRoundTrip : Prop :=
  (∀ b : Block, b.data ≠ [] → decodePulses (expandBlocks 0 [b]) = some b.data) ∧
  (∀ (b : Block) (ext : Nat),
    (b.pulses ext).length = (if b.data.head? = some 0#8 then 8063 else 3223) + 2 + 16 * b.data.length) ∧
  (∀ (b : Block) (rest : List Block) (ext : Nat),
    expandBlocks ext [] = (if 0 < ext then [ext] else []) ∧
    expandBlocks ext (b :: rest) =
      (2168 + ext) :: List.replicate ((if b.data.head? = some 0#8 then 8063 else 3223) - 1) 2168 ++ [667, 735] ++
        b.data.flatMap (fun v => [7, 6, 5, 4, 3, 2, 1, 0].flatMap (fun i => List.replicate 2 (if bit v i then 1710 else 855))) ++
        expandBlocks (b.pauseMs.toNat * 3500) rest) ∧
  (∀ (file : List Byte) (bs : List Block),
    parseTap file = .ok bs ↔
      file = bs.flatMap (fun b => tapRecord b.data) ∧ ∀ b ∈ bs, b.data.length < 65536 ∧ b.pauseMs = 1000#32) ∧
  (∀ (file : List Byte) (e : HostError), parseTap file = .error e → e = .tapeParse none) ∧
  (∀ (file : List Byte) (bs : List Block),
    parseTzx file = .ok bs ↔
      (∃ major minor : Byte,
        file = [0x5A#8, 0x58#8, 0x54#8, 0x61#8, 0x70#8, 0x65#8, 0x21#8, 0x1A#8, major, minor] ++ bs.flatMap tzxRecord) ∧
      ∀ b ∈ bs, b.data.length < 65536 ∧ b.pauseMs.toNat < 65536) ∧
  (∀ (major minor id : Byte) (bs : List Block) (rest : List Byte), id ≠ 0x10#8 →
    (∀ b ∈ bs, b.data.length < 65536 ∧ b.pauseMs.toNat < 65536) →
    parseTzx ([0x5A#8, 0x58#8, 0x54#8, 0x61#8, 0x70#8, 0x65#8, 0x21#8, 0x1A#8, major, minor] ++ bs.flatMap tzxRecord ++
        id :: rest) =
      .error (.tapeParse (some (id, 10 + (bs.map (fun b => 5 + b.data.length)).sum)))) ∧
  (∀ (file : List Byte) (e : HostError), parseTzx file = .error e →
    e = .tapeParse none ∨ ∃ id at_, e = .tapeParse (some (id, at_)) ∧ file[at_]? = some id ∧ id ≠ 0x10#8) ∧
  (∀ file : List Byte,
    parseTape .tap file = (parseTap file).map (fun bs => some
      { initialLevel := false, pulses := (expandBlocks 0 bs).map pulseOf, sampleRate := none, origin := .tap, blocks := bs }) ∧
    parseTape .tzx file = (parseTzx file).map (fun bs => some
      { initialLevel := false, pulses := (expandBlocks 0 bs).map pulseOf, sampleRate := none, origin := .tzx, blocks := bs }) ∧
    parseTape .wav file = (parseWav file).map (fun w => some w.waveform)) ∧
  (∀ d : Nat, (d < 2 ^ 32 → (pulseOf d).toNat = d) ∧ (1 ≤ d → pulseOf d ≠ 0#32)) ∧
  (∀ bs : List Block, (∀ b ∈ bs, b.pauseMs.toNat < 65536) →
    ((expandBlocks 0 bs).map pulseOf).map BitVec.toNat = expandBlocks 0 bs) ∧
  (∀ w : WavFile,
    (w.format.bits = 8 → w.signs = w.data.map (fun v => decide (128 ≤ v.toNat))) ∧
    (∀ (xs : List Int) (odd : List Byte), w.format.bits = 16 → (∀ x ∈ xs, -32768 ≤ x ∧ x ≤ 32767) → odd.length ≤ 1 →
      w.data = xs.flatMap sampleBytes ++ odd → w.signs = xs.map (fun x => decide (0 ≤ x))) ∧
    (w.signs = [] → w.waveform =
      { initialLevel := false, pulses := [], sampleRate := some w.format.sampleRate, origin := .wav, blocks := [] }) ∧
    (∀ (lvl : Bool) (runs : List Nat), runs ≠ [] → (∀ n ∈ runs, 0 < n) → w.signs = runsOf id lvl runs →
      w.waveform =
        { initialLevel := lvl
          pulses := runs.map (fun n => pulseOf (max 1 ⌊(n : Rat) * 3500000 / (w.format.sampleRate : Rat) + 1 / 2⌋.toNat))
          sampleRate := some w.format.sampleRate
          origin := .wav
          blocks := [] }))

/-- R500 .. R502: how a session starts, and when the request is refused (R550); R503: the file an append extends, or a start
keeps the beginning of, is one `existingWav` accepts.  R500 lets no session start without an output format; that the start is
then answered with TapeStateConflict is the model's choice (log 16, DESIGN CHOICE: R501 says nothing of it).  A start that
finds a destination it cannot read is answered with TapeIo, as R520 has a failure to read; that it opens no session, and that
one switch says whether the file can be read, is the model's choice (log 17, DESIGN CHOICE).  R504 .. R507: what the recorder hears: nothing outside
a session; the first event opens a block, the next changes of level give the times between them; 350,000 T-states without a
change, or force, end the block: one run of samples a pulse, its level alternating, its length rounded down, and the idle run
at the last level; a block that cannot be decoded is dropped with a warning (a count of the model's own, log 9). -/
def Obligations.RecorderCapture : Prop :=
  (∀ (r : Recorder) (t : Nat) (l : Bool), r.enabled = false → r.micEvent t l = r) ∧
  (∀ (r : Recorder) (t : Nat) (l : Bool), r.enabled = true → r.blockActive = false →
    r.micEvent t l = { r with blockActive := true, blockStartLevel := l, lastLevel := l, lastTransitionT := t }) ∧
  (∀ (r : Recorder) (t : Nat) (l : Bool), r.enabled = true → r.blockActive = true →
    r.micEvent t l =
      if l = r.lastLevel then r
      else { r with pendingPulses := r.pendingPulses ++ [t - r.lastTransitionT], lastLevel := l, lastTransitionT := t }) ∧
  (∀ (c : MachineConfig) (r : Recorder) (now : Nat) (force : Bool),
    r.update c now force =
      if r.enabled = true ∧ r.blockActive = true ∧ (force = true ∨ 350000 < now - r.lastTransitionT) then
        { r with
          audioBuf := r.audioBuf ++ renderPulses c r.blockStartLevel r.pendingPulses ++
            List.replicate ((now - r.lastTransitionT) * c.recSampleRate / 3500000)
              (if r.lastLevel then c.recAmplitude else -c.recAmplitude)
          tapBlocks := r.tapBlocks ++
            (if r.format = .tap ∧ 100 ≤ r.pendingPulses.length then
              ((decodePulses r.pendingPulses).map (fun v => ({ data := v, pauseMs := 0#32 } : Block))).toList
             else [])
          pendingPulses := []
          blockActive := false
          sessionDirty := true
          warnings := r.warnings +
            (if r.format = .tap ∧ 100 ≤ r.pendingPulses.length ∧ decodePulses r.pendingPulses = none then 1 else 0) }
      else r) ∧
  (∀ (c : MachineConfig) (level : Bool) (pulses : List Nat),
    renderPulses c level pulses =
      runsOf (fun l => if l then c.recAmplitude else -c.recAmplitude) level
        (pulses.map (fun d => d * c.recSampleRate / 3500000))) ∧
  (∀ s : State, s.running →
    let error (kind : HostError) : ErrorMessage :=
      { kind := kind, subsystem := .recorder, path := some s.config.recorderOutputPath }
    let session (format : SessionFormat) (append : Bool) (existing : Option (List Byte)) (keep : Nat) : State :=
      { s with recorder := newSession s.recorder format append existing keep }
    (s.recorder.enabled = true →
      RequestRefused .recordStart s (error .tapeStateConflict) ∧
      RequestRefused .recordStartAppend s (error .tapeStateConflict)) ∧
    (s.config.recorderOutputFormat ≠ .wav → RequestRefused .recordStartAppend s (error .tapeStateConflict)) ∧
    (s.config.recorderOutputFormat = .none → RequestRefused .recordStart s (error .tapeStateConflict)) ∧
    (s.recorder.enabled = false → s.config.recorderOutputFormat = .tap →
      RequestDone .recordStart s (session .tap false s.recorder.wavExisting s.recorder.wavPrefixSamples)) ∧
    (s.recorder.enabled = false → s.config.recorderOutputFormat = .wav →
      (s.disk.recorderOutput = none →
        RequestDone .recordStart s (session .wav false none 0) ∧
        RequestDone .recordStartAppend s (session .wav true none 0)) ∧
      (∀ file, s.disk.recorderOutput = some file → s.disk.readable = false →
        RequestRefused .recordStart s (error .tapeIo) ∧ RequestRefused .recordStartAppend s (error .tapeIo)) ∧
      (∀ file, s.disk.recorderOutput = some file → s.disk.readable = true → existingWav s.config file = none →
        RequestDone .recordStart s (session .wav false none 0) ∧
        RequestRefused .recordStartAppend s (error .tapeStateConflict)) ∧
      (∀ file w, s.disk.recorderOutput = some file → s.disk.readable = true → existingWav s.config file = some w →
        RequestDone .recordStart s (session .wav false (some file)
          (min (w.data.length / 2) (s.tape.position * s.config.recSampleRate / 3500000))) ∧
        RequestDone .recordStartAppend s (session .wav true (some file) (w.data.length / 2)))))

/-- R463, R501 .. R503, R515 .. R520: stopping finalizes the open block and writes what the session captured, or nothing when it
captured nothing, and ends the session; a write that fails is answered with TapeIo and leaves any contents (U21, log 17), and
the answer is one message on the error stream (R550; fields and message are the model's own, log 9, log 23, DESIGN CHOICE).
What is written over or appended to is `wavExisting`, the bytes read when the session began (log 22, DEDUCED: R519 opens the
file at the stop).  A u32 field is exact where its value fits and else a free value (log 24, DESIGN CHOICE).  A
TAP file written is the records of the decoded blocks, those too long left out.  A WAV file written over another parses back
to 16-bit mono PCM at the recorder's rate with the kept prefix and the new samples in its data chunk; one appended to parses
back in the old format with the new samples behind the old data, keeps every byte but the two size fields, which it sets
right, and ends in the samples. -/
def Obligations.WavFiles : Prop :=
  (∀ (c : MachineConfig) (old : List Byte) (keep : Nat) (audio : List Int), 0 < c.recSampleRate →
    c.recSampleRate < 2 ^ 32 → 2 * keep ≤ old.length → 36 + 2 * (keep + audio.length) < 2 ^ 32 →
    parseWav (wavOverwrite c old keep audio) = .ok
      { format := { audioFormat := 1, channels := 1, sampleRate := c.recSampleRate, bits := 16 },
        data := old.take (2 * keep) ++ audio.flatMap sampleBytes, dataOffset := 44, dataIsLast := true }) ∧
  (∀ n : Nat, (u32Field n).length = 4 ∧ (n < 2 ^ 32 → u32Field n = leBytes 4 n)) ∧
  (∀ (c : MachineConfig) (old : List Byte) (keep : Nat) (audio : List Int),
    let d := 2 * (keep + audio.length)
    wavOverwrite c old keep audio =
      [0x52#8, 0x49#8, 0x46#8, 0x46#8] ++ u32Field (36 + d) ++ [0x57#8, 0x41#8, 0x56#8, 0x45#8] ++
        [0x66#8, 0x6D#8, 0x74#8, 0x20#8] ++ [16#8, 0#8, 0#8, 0#8] ++ [1#8, 0#8] ++ [1#8, 0#8] ++
        u32Field c.recSampleRate ++ u32Field (c.recSampleRate * 2) ++ [2#8, 0#8] ++ [16#8, 0#8] ++
        [0x64#8, 0x61#8, 0x74#8, 0x61#8] ++ u32Field d ++ old.take (2 * keep) ++ audio.flatMap sampleBytes) ∧
  (∀ (c : MachineConfig) (file : List Byte) (w : WavFile),
    existingWav c file = some w ↔
      parseWav file = .ok w ∧ w.dataIsLast = true ∧
        w.format = { audioFormat := 1, channels := 1, sampleRate := c.recSampleRate, bits := 16 }) ∧
  (∀ (c : MachineConfig) (file : List Byte) (w : WavFile) (audio : List Int), existingWav c file = some w →
    let out := wavAppend file w audio
    out.length = file.length + 2 * audio.length ∧
    (out.drop 4).take 4 = u32Field (out.length - 8) ∧
    (out.drop (w.dataOffset - 4)).take 4 = u32Field (w.data.length + 2 * audio.length) ∧
    out.drop file.length = audio.flatMap sampleBytes ∧
    (∀ k, k < file.length → (k < 4 ∨ 8 ≤ k) → (k < w.dataOffset - 4 ∨ w.dataOffset ≤ k) → out[k]? = file[k]?) ∧
    (w.data.length + 2 * audio.length < 2 ^ 32 →
      parseWav out = .ok { w with data := (out.drop w.dataOffset).take (w.data.length + 2 * audio.length) } ∧
      (w.data.length % 2 = 0 →
        parseWav out = .ok { w with data := w.data ++ audio.flatMap sampleBytes }))) ∧
  (∀ (c : MachineConfig) (r : Recorder),
    (r.format = .tap →
      r.output c = (r.tapBlocks.filter (fun b => decide (b.data.length < 65536))).flatMap (fun b => tapRecord b.data)) ∧
    (r.format = .wav → r.wavExisting = none → r.output c = wavOverwrite c [] 0 r.audioBuf) ∧
    (∀ file w, r.format = .wav → r.wavExisting = some file → existingWav c file = some w →
      r.output c =
        if r.append then wavAppend file w r.audioBuf else wavOverwrite c w.data r.wavPrefixSamples r.audioBuf)) ∧
  (∀ s : State, s.running →
    let r := s.recorder.update s.config s.clock true
    let ended : State := { s with recorder := { r with enabled := false, sessionDirty := false } }
    let error : ErrorMessage :=
      { kind := .tapeIo, subsystem := .recorder, path := some s.config.recorderOutputPath }
    (r.sessionDirty = false → RequestDone .recordStop s ended) ∧
    (r.sessionDirty = true → s.disk.writable = true →
      RequestDone .recordStop s { ended with disk := { s.disk with recorderOutput := some (r.output s.config) } }) ∧
    (r.sessionDirty = true → s.disk.writable = false →
      ∃ contents, RequestAnswers .recordStop s
        { ended with
          disk := { s.disk with recorderOutput := contents }
          freeDraws := s.freeDraws + 1
          hostReply := some error
          errorStream := s.errorStream ++ [error] }))

/-- R460, R548 .. R550: no machine starts from a ROM image of the wrong size; from one of 16,384 bytes it starts at the reset
state with the image in the ROM and the tape the configuration names, no tape when loading it failed, and a message on the
error stream for each failure, that of the tape first; the invariant of a run holds.  Shutdown stops an open session, pauses
the tape at the clock and closes the audio device.  Of this the following is the model's choice: the registers and the RAM of
the reset state (log 1, log 3: R49 leaves them unspecified), its nextTransition and recorder fields (log 2), the fields
audioOpen, hostReply and errorStream (log 9, log 23), the two byte lists and switches of the disk (log 17), and that no step
runs after shutdown (log 18); all DESIGN CHOICE. -/
def Obligations.BootAndShutdown : Prop :=
  (∀ (c : MachineConfig) (rom : List Byte) (disk : Disk) (audio : Bool), rom.length ≠ 16384 →
    State.boot c rom disk audio = .error { kind := .invalidRom, subsystem := .rom, path := none }) ∧
  (∀ (c : MachineConfig) (rom : List Byte) (disk : Disk) (audio : Bool), rom.length = 16384 →
    ∃ s : State, State.boot c rom disk audio = .ok s ∧
      (∀ k, k < 16384 → some (s.read8 (BitVec.ofNat 16 k)) = rom[k]?) ∧
      (∀ x : Word, 16384 ≤ x.toNat → s.read8 x = State.reset.read8 x) ∧
      s = { State.reset with
            mem := s.mem
            config := c
            disk := disk
            tape := Tape.reset (match loadTape c disk with | .ok source => source | .error _ => none)
            audioOpen := audio
            errorStream :=
              (match loadTape c disk with
                | .ok _ => []
                | .error e => [{ kind := e, subsystem := .tape, path := some c.tapeInputPath }]) ++
              (if audio then [] else [{ kind := .audioDeviceUnavailable, subsystem := .audio, path := none }]) } ∧
      s.Inv) ∧
  (∀ (c : MachineConfig) (disk : Disk),
    (c.tapeInputFormat = .none → loadTape c disk = .ok none) ∧
    (c.tapeInputFormat ≠ .none → disk.tapeInput = none ∨ disk.readable = false → loadTape c disk = .error .tapeIo) ∧
    (∀ file, c.tapeInputFormat ≠ .none → disk.tapeInput = some file → disk.readable = true →
      loadTape c disk = parseTape c.tapeInputFormat file)) ∧
  (∀ s t : State, s.running → RequestAnswers .shutdown s t →
    (s.recorder.enabled = false →
      t = { s with tape := s.tape.pause s.clock, audioOpen := false, shutDown := true, hostReply := none }) ∧
    (s.recorder.enabled = true → ∀ u, RequestAnswers .recordStop s u →
      t = { u with tape := s.tape.pause s.clock, audioOpen := false, shutDown := true }) ∧
    t.recorder.enabled = false ∧ (s.Inv → t.tape.playing = false) ∧ t.audioOpen = false ∧ t.cpu = s.cpu ∧
      t.mem = s.mem ∧ step t = .fault .shutDown)

end
end

