-- ==== Sys2Proof/Laws/Bits.lean ====
section
/-! SUPPORT. Bits: bytes and words as numbers, sign extension, and the addresses reckoned from them. -/

namespace Sys2Proof

/-! ## Halves of a word (rule R7) -/

theorem toNat_mkWord (h l : Byte) : (mkWord h l).toNat = 256 * h.toNat + l.toNat := by
  have hl := l.isLt
  unfold mkWord
  rw [BitVec.toNat_append, ← Nat.shiftLeft_add_eq_or_of_lt hl, Nat.shiftLeft_eq]
  omega

theorem toNat_hiByte (v : Word) : (hiByte v).toNat = v.toNat / 256 := by
  have := v.isLt
  simp [hiByte, BitVec.extractLsb'_toNat, Nat.shiftRight_eq_div_pow]
  omega

theorem toNat_loByte (v : Word) : (loByte v).toNat = v.toNat % 256 := by
  simp [loByte, BitVec.extractLsb'_toNat]

@[simp] theorem hiByte_mkWord (h l : Byte) : hiByte (mkWord h l) = h := by
  have := l.isLt
  apply BitVec.eq_of_toNat_eq
  rw [toNat_hiByte, toNat_mkWord]
  omega

@[simp] theorem loByte_mkWord (h l : Byte) : loByte (mkWord h l) = l := by
  have := l.isLt
  apply BitVec.eq_of_toNat_eq
  rw [toNat_loByte, toNat_mkWord]
  omega

@[simp] theorem mkWord_hiByte_loByte (v : Word) : mkWord (hiByte v) (loByte v) = v := by
  apply BitVec.eq_of_toNat_eq
  rw [toNat_mkWord, toNat_hiByte, toNat_loByte]
  omega

/-! ## Sign extension (rules R8, R100, R101) -/

theorem toInt_sext16 (d : Byte) : (sext16 d).toInt = d.toInt := BitVec.toInt_signExtend_of_le (by omega)

/-- A word plus a sign-extended byte, over the integers. -/
theorem add_sext16 (a : Word) (d : Byte) : a + sext16 d = BitVec.ofInt 16 ((a.toNat : Int) + d.toInt) := by
  rw [BitVec.ofInt_add, ← toInt_sext16]
  simp

namespace Machine

theorem ea_eq_indexedAddress (c : Cpu) (xy : Xy) (d : Byte) : c.ea xy d = indexedAddress c xy d := by
  cases xy <;> exact add_sext16 _ _

theorem add_two_sext16 (pc : Word) (e : Byte) : pc + 2#16 + sext16 e = relTarget pc e := by
  unfold relTarget
  rw [BitVec.add_assoc, BitVec.ofInt_add, BitVec.ofInt_add, BitVec.ofInt_natCast, BitVec.ofNat_toNat,
    BitVec.setWidth_eq, ← toInt_sext16, BitVec.ofInt_toInt, BitVec.add_assoc]
  rfl

end Machine

end Sys2Proof
end

