-- ==== Sys2Proof/Laws/State.lean ====
section
/-! SUPPORT. State: what each named update does to each field of the state, one lemma a field. -/

namespace Sys2Proof.Machine

/-! `setCpu` -/
@[simp] theorem State.setCpu_cpu (s : State) (c : Cpu) : (s.setCpu c).cpu = c := rfl
@[simp] theorem State.setCpu_cursor (s : State) (c : Cpu) : (s.setCpu c).cursor = s.cursor := rfl
@[simp] theorem State.setCpu_mem (s : State) (c : Cpu) : (s.setCpu c).mem = s.mem := rfl
@[simp] theorem State.setCpu_clock (s : State) (c : Cpu) : (s.setCpu c).clock = s.clock := rfl
@[simp] theorem State.setCpu_frameAcc (s : State) (c : Cpu) : (s.setCpu c).frameAcc = s.frameAcc := rfl
@[simp] theorem State.setCpu_keys (s : State) (c : Cpu) : (s.setCpu c).keys = s.keys := rfl
@[simp] theorem State.setCpu_ula (s : State) (c : Cpu) : (s.setCpu c).ula = s.ula := rfl
@[simp] theorem State.setCpu_beeper (s : State) (c : Cpu) : (s.setCpu c).beeper = s.beeper := rfl
@[simp] theorem State.setCpu_tape (s : State) (c : Cpu) : (s.setCpu c).tape = s.tape := rfl
@[simp] theorem State.setCpu_recorder (s : State) (c : Cpu) : (s.setCpu c).recorder = s.recorder := rfl
@[simp] theorem State.setCpu_fault (s : State) (c : Cpu) : (s.setCpu c).fault = s.fault := rfl
@[simp] theorem State.setCpu_config (s : State) (c : Cpu) : (s.setCpu c).config = s.config := rfl
@[simp] theorem State.setCpu_disk (s : State) (c : Cpu) : (s.setCpu c).disk = s.disk := rfl
@[simp] theorem State.setCpu_schedule (s : State) (c : Cpu) : (s.setCpu c).schedule = s.schedule := rfl
@[simp] theorem State.setCpu_audioOpen (s : State) (c : Cpu) : (s.setCpu c).audioOpen = s.audioOpen := rfl
@[simp] theorem State.setCpu_audioOut (s : State) (c : Cpu) : (s.setCpu c).audioOut = s.audioOut := rfl
@[simp] theorem State.setCpu_framesPresented (s : State) (c : Cpu) : (s.setCpu c).framesPresented = s.framesPresented := rfl
@[simp] theorem State.setCpu_hostReply (s : State) (c : Cpu) : (s.setCpu c).hostReply = s.hostReply := rfl
@[simp] theorem State.setCpu_errorStream (s : State) (c : Cpu) : (s.setCpu c).errorStream = s.errorStream := rfl
@[simp] theorem State.setCpu_shutDown (s : State) (c : Cpu) : (s.setCpu c).shutDown = s.shutDown := rfl
@[simp] theorem State.setCpu_freeDraws (s : State) (c : Cpu) : (s.setCpu c).freeDraws = s.freeDraws := rfl
@[simp] theorem State.setCpu_read8 (s : State) (c : Cpu) (x : Word) : (s.setCpu c).read8 x = s.read8 x := rfl

/-! `setMem` -/
@[simp] theorem State.setMem_cpu (s : State) (m : Memory) : (s.setMem m).cpu = s.cpu := rfl
@[simp] theorem State.setMem_cursor (s : State) (m : Memory) : (s.setMem m).cursor = s.cursor := rfl
@[simp] theorem State.setMem_mem (s : State) (m : Memory) : (s.setMem m).mem = m := rfl
@[simp] theorem State.setMem_clock (s : State) (m : Memory) : (s.setMem m).clock = s.clock := rfl
@[simp] theorem State.setMem_frameAcc (s : State) (m : Memory) : (s.setMem m).frameAcc = s.frameAcc := rfl
@[simp] theorem State.setMem_keys (s : State) (m : Memory) : (s.setMem m).keys = s.keys := rfl
@[simp] theorem State.setMem_ula (s : State) (m : Memory) : (s.setMem m).ula = s.ula := rfl
@[simp] theorem State.setMem_beeper (s : State) (m : Memory) : (s.setMem m).beeper = s.beeper := rfl
@[simp] theorem State.setMem_tape (s : State) (m : Memory) : (s.setMem m).tape = s.tape := rfl
@[simp] theorem State.setMem_recorder (s : State) (m : Memory) : (s.setMem m).recorder = s.recorder := rfl
@[simp] theorem State.setMem_fault (s : State) (m : Memory) : (s.setMem m).fault = s.fault := rfl
@[simp] theorem State.setMem_config (s : State) (m : Memory) : (s.setMem m).config = s.config := rfl
@[simp] theorem State.setMem_disk (s : State) (m : Memory) : (s.setMem m).disk = s.disk := rfl
@[simp] theorem State.setMem_schedule (s : State) (m : Memory) : (s.setMem m).schedule = s.schedule := rfl
@[simp] theorem State.setMem_audioOpen (s : State) (m : Memory) : (s.setMem m).audioOpen = s.audioOpen := rfl
@[simp] theorem State.setMem_audioOut (s : State) (m : Memory) : (s.setMem m).audioOut = s.audioOut := rfl
@[simp] theorem State.setMem_framesPresented (s : State) (m : Memory) : (s.setMem m).framesPresented = s.framesPresented := rfl
@[simp] theorem State.setMem_hostReply (s : State) (m : Memory) : (s.setMem m).hostReply = s.hostReply := rfl
@[simp] theorem State.setMem_errorStream (s : State) (m : Memory) : (s.setMem m).errorStream = s.errorStream := rfl
@[simp] theorem State.setMem_shutDown (s : State) (m : Memory) : (s.setMem m).shutDown = s.shutDown := rfl
@[simp] theorem State.setMem_freeDraws (s : State) (m : Memory) : (s.setMem m).freeDraws = s.freeDraws := rfl

/-! `setCursor` -/
@[simp] theorem State.setCursor_cpu (s : State) (c : Cursor) : (s.setCursor c).cpu = s.cpu := rfl
@[simp] theorem State.setCursor_cursor (s : State) (c : Cursor) : (s.setCursor c).cursor = c := rfl
@[simp] theorem State.setCursor_mem (s : State) (c : Cursor) : (s.setCursor c).mem = s.mem := rfl
@[simp] theorem State.setCursor_clock (s : State) (c : Cursor) : (s.setCursor c).clock = s.clock := rfl
@[simp] theorem State.setCursor_frameAcc (s : State) (c : Cursor) : (s.setCursor c).frameAcc = s.frameAcc := rfl
@[simp] theorem State.setCursor_keys (s : State) (c : Cursor) : (s.setCursor c).keys = s.keys := rfl
@[simp] theorem State.setCursor_ula (s : State) (c : Cursor) : (s.setCursor c).ula = s.ula := rfl
@[simp] theorem State.setCursor_beeper (s : State) (c : Cursor) : (s.setCursor c).beeper = s.beeper := rfl
@[simp] theorem State.setCursor_tape (s : State) (c : Cursor) : (s.setCursor c).tape = s.tape := rfl
@[simp] theorem State.setCursor_recorder (s : State) (c : Cursor) : (s.setCursor c).recorder = s.recorder := rfl
@[simp] theorem State.setCursor_fault (s : State) (c : Cursor) : (s.setCursor c).fault = s.fault := rfl
@[simp] theorem State.setCursor_config (s : State) (c : Cursor) : (s.setCursor c).config = s.config := rfl
@[simp] theorem State.setCursor_disk (s : State) (c : Cursor) : (s.setCursor c).disk = s.disk := rfl
@[simp] theorem State.setCursor_schedule (s : State) (c : Cursor) : (s.setCursor c).schedule = s.schedule := rfl
@[simp] theorem State.setCursor_audioOpen (s : State) (c : Cursor) : (s.setCursor c).audioOpen = s.audioOpen := rfl
@[simp] theorem State.setCursor_audioOut (s : State) (c : Cursor) : (s.setCursor c).audioOut = s.audioOut := rfl
@[simp] theorem State.setCursor_framesPresented (s : State) (c : Cursor) : (s.setCursor c).framesPresented = s.framesPresented := rfl
@[simp] theorem State.setCursor_hostReply (s : State) (c : Cursor) : (s.setCursor c).hostReply = s.hostReply := rfl
@[simp] theorem State.setCursor_errorStream (s : State) (c : Cursor) : (s.setCursor c).errorStream = s.errorStream := rfl
@[simp] theorem State.setCursor_shutDown (s : State) (c : Cursor) : (s.setCursor c).shutDown = s.shutDown := rfl
@[simp] theorem State.setCursor_freeDraws (s : State) (c : Cursor) : (s.setCursor c).freeDraws = s.freeDraws := rfl
@[simp] theorem State.setCursor_read8 (s : State) (c : Cursor) (x : Word) : (s.setCursor c).read8 x = s.read8 x := rfl

/-! `setA` -/
@[simp] theorem State.setA_cpu (s : State) (v : Byte) : (s.setA v).cpu = { s.cpu with a := v } := rfl
@[simp] theorem State.setA_cursor (s : State) (v : Byte) : (s.setA v).cursor = s.cursor := rfl
@[simp] theorem State.setA_mem (s : State) (v : Byte) : (s.setA v).mem = s.mem := rfl
@[simp] theorem State.setA_clock (s : State) (v : Byte) : (s.setA v).clock = s.clock := rfl
@[simp] theorem State.setA_frameAcc (s : State) (v : Byte) : (s.setA v).frameAcc = s.frameAcc := rfl
@[simp] theorem State.setA_keys (s : State) (v : Byte) : (s.setA v).keys = s.keys := rfl
@[simp] theorem State.setA_ula (s : State) (v : Byte) : (s.setA v).ula = s.ula := rfl
@[simp] theorem State.setA_beeper (s : State) (v : Byte) : (s.setA v).beeper = s.beeper := rfl
@[simp] theorem State.setA_tape (s : State) (v : Byte) : (s.setA v).tape = s.tape := rfl
@[simp] theorem State.setA_recorder (s : State) (v : Byte) : (s.setA v).recorder = s.recorder := rfl
@[simp] theorem State.setA_fault (s : State) (v : Byte) : (s.setA v).fault = s.fault := rfl
@[simp] theorem State.setA_config (s : State) (v : Byte) : (s.setA v).config = s.config := rfl
@[simp] theorem State.setA_disk (s : State) (v : Byte) : (s.setA v).disk = s.disk := rfl
@[simp] theorem State.setA_schedule (s : State) (v : Byte) : (s.setA v).schedule = s.schedule := rfl
@[simp] theorem State.setA_audioOpen (s : State) (v : Byte) : (s.setA v).audioOpen = s.audioOpen := rfl
@[simp] theorem State.setA_audioOut (s : State) (v : Byte) : (s.setA v).audioOut = s.audioOut := rfl
@[simp] theorem State.setA_framesPresented (s : State) (v : Byte) : (s.setA v).framesPresented = s.framesPresented := rfl
@[simp] theorem State.setA_hostReply (s : State) (v : Byte) : (s.setA v).hostReply = s.hostReply := rfl
@[simp] theorem State.setA_errorStream (s : State) (v : Byte) : (s.setA v).errorStream = s.errorStream := rfl
@[simp] theorem State.setA_shutDown (s : State) (v : Byte) : (s.setA v).shutDown = s.shutDown := rfl
@[simp] theorem State.setA_freeDraws (s : State) (v : Byte) : (s.setA v).freeDraws = s.freeDraws := rfl
@[simp] theorem State.setA_read8 (s : State) (v : Byte) (x : Word) : (s.setA v).read8 x = s.read8 x := rfl

/-! `setF` -/
@[simp] theorem State.setF_cpu (s : State) (v : Byte) : (s.setF v).cpu = { s.cpu with f := v } := rfl
@[simp] theorem State.setF_cursor (s : State) (v : Byte) : (s.setF v).cursor = s.cursor := rfl
@[simp] theorem State.setF_mem (s : State) (v : Byte) : (s.setF v).mem = s.mem := rfl
@[simp] theorem State.setF_clock (s : State) (v : Byte) : (s.setF v).clock = s.clock := rfl
@[simp] theorem State.setF_frameAcc (s : State) (v : Byte) : (s.setF v).frameAcc = s.frameAcc := rfl
@[simp] theorem State.setF_keys (s : State) (v : Byte) : (s.setF v).keys = s.keys := rfl
@[simp] theorem State.setF_ula (s : State) (v : Byte) : (s.setF v).ula = s.ula := rfl
@[simp] theorem State.setF_beeper (s : State) (v : Byte) : (s.setF v).beeper = s.beeper := rfl
@[simp] theorem State.setF_tape (s : State) (v : Byte) : (s.setF v).tape = s.tape := rfl
@[simp] theorem State.setF_recorder (s : State) (v : Byte) : (s.setF v).recorder = s.recorder := rfl
@[simp] theorem State.setF_fault (s : State) (v : Byte) : (s.setF v).fault = s.fault := rfl
@[simp] theorem State.setF_config (s : State) (v : Byte) : (s.setF v).config = s.config := rfl
@[simp] theorem State.setF_disk (s : State) (v : Byte) : (s.setF v).disk = s.disk := rfl
@[simp] theorem State.setF_schedule (s : State) (v : Byte) : (s.setF v).schedule = s.schedule := rfl
@[simp] theorem State.setF_audioOpen (s : State) (v : Byte) : (s.setF v).audioOpen = s.audioOpen := rfl
@[simp] theorem State.setF_audioOut (s : State) (v : Byte) : (s.setF v).audioOut = s.audioOut := rfl
@[simp] theorem State.setF_framesPresented (s : State) (v : Byte) : (s.setF v).framesPresented = s.framesPresented := rfl
@[simp] theorem State.setF_hostReply (s : State) (v : Byte) : (s.setF v).hostReply = s.hostReply := rfl
@[simp] theorem State.setF_errorStream (s : State) (v : Byte) : (s.setF v).errorStream = s.errorStream := rfl
@[simp] theorem State.setF_shutDown (s : State) (v : Byte) : (s.setF v).shutDown = s.shutDown := rfl
@[simp] theorem State.setF_freeDraws (s : State) (v : Byte) : (s.setF v).freeDraws = s.freeDraws := rfl
@[simp] theorem State.setF_read8 (s : State) (v : Byte) (x : Word) : (s.setF v).read8 x = s.read8 x := rfl

/-! `setB` -/
@[simp] theorem State.setB_cpu (s : State) (v : Byte) : (s.setB v).cpu = { s.cpu with b := v } := rfl
@[simp] theorem State.setB_cursor (s : State) (v : Byte) : (s.setB v).cursor = s.cursor := rfl
@[simp] theorem State.setB_mem (s : State) (v : Byte) : (s.setB v).mem = s.mem := rfl
@[simp] theorem State.setB_clock (s : State) (v : Byte) : (s.setB v).clock = s.clock := rfl
@[simp] theorem State.setB_frameAcc (s : State) (v : Byte) : (s.setB v).frameAcc = s.frameAcc := rfl
@[simp] theorem State.setB_keys (s : State) (v : Byte) : (s.setB v).keys = s.keys := rfl
@[simp] theorem State.setB_ula (s : State) (v : Byte) : (s.setB v).ula = s.ula := rfl
@[simp] theorem State.setB_beeper (s : State) (v : Byte) : (s.setB v).beeper = s.beeper := rfl
@[simp] theorem State.setB_tape (s : State) (v : Byte) : (s.setB v).tape = s.tape := rfl
@[simp] theorem State.setB_recorder (s : State) (v : Byte) : (s.setB v).recorder = s.recorder := rfl
@[simp] theorem State.setB_fault (s : State) (v : Byte) : (s.setB v).fault = s.fault := rfl
@[simp] theorem State.setB_config (s : State) (v : Byte) : (s.setB v).config = s.config := rfl
@[simp] theorem State.setB_disk (s : State) (v : Byte) : (s.setB v).disk = s.disk := rfl
@[simp] theorem State.setB_schedule (s : State) (v : Byte) : (s.setB v).schedule = s.schedule := rfl
@[simp] theorem State.setB_audioOpen (s : State) (v : Byte) : (s.setB v).audioOpen = s.audioOpen := rfl
@[simp] theorem State.setB_audioOut (s : State) (v : Byte) : (s.setB v).audioOut = s.audioOut := rfl
@[simp] theorem State.setB_framesPresented (s : State) (v : Byte) : (s.setB v).framesPresented = s.framesPresented := rfl
@[simp] theorem State.setB_hostReply (s : State) (v : Byte) : (s.setB v).hostReply = s.hostReply := rfl
@[simp] theorem State.setB_errorStream (s : State) (v : Byte) : (s.setB v).errorStream = s.errorStream := rfl
@[simp] theorem State.setB_shutDown (s : State) (v : Byte) : (s.setB v).shutDown = s.shutDown := rfl
@[simp] theorem State.setB_freeDraws (s : State) (v : Byte) : (s.setB v).freeDraws = s.freeDraws := rfl
@[simp] theorem State.setB_read8 (s : State) (v : Byte) (x : Word) : (s.setB v).read8 x = s.read8 x := rfl

/-! `setSp` -/
@[simp] theorem State.setSp_cpu (s : State) (v : Word) : (s.setSp v).cpu = { s.cpu with sp := v } := rfl
@[simp] theorem State.setSp_cursor (s : State) (v : Word) : (s.setSp v).cursor = s.cursor := rfl
@[simp] theorem State.setSp_mem (s : State) (v : Word) : (s.setSp v).mem = s.mem := rfl
@[simp] theorem State.setSp_clock (s : State) (v : Word) : (s.setSp v).clock = s.clock := rfl
@[simp] theorem State.setSp_frameAcc (s : State) (v : Word) : (s.setSp v).frameAcc = s.frameAcc := rfl
@[simp] theorem State.setSp_keys (s : State) (v : Word) : (s.setSp v).keys = s.keys := rfl
@[simp] theorem State.setSp_ula (s : State) (v : Word) : (s.setSp v).ula = s.ula := rfl
@[simp] theorem State.setSp_beeper (s : State) (v : Word) : (s.setSp v).beeper = s.beeper := rfl
@[simp] theorem State.setSp_tape (s : State) (v : Word) : (s.setSp v).tape = s.tape := rfl
@[simp] theorem State.setSp_recorder (s : State) (v : Word) : (s.setSp v).recorder = s.recorder := rfl
@[simp] theorem State.setSp_fault (s : State) (v : Word) : (s.setSp v).fault = s.fault := rfl
@[simp] theorem State.setSp_config (s : State) (v : Word) : (s.setSp v).config = s.config := rfl
@[simp] theorem State.setSp_disk (s : State) (v : Word) : (s.setSp v).disk = s.disk := rfl
@[simp] theorem State.setSp_schedule (s : State) (v : Word) : (s.setSp v).schedule = s.schedule := rfl
@[simp] theorem State.setSp_audioOpen (s : State) (v : Word) : (s.setSp v).audioOpen = s.audioOpen := rfl
@[simp] theorem State.setSp_audioOut (s : State) (v : Word) : (s.setSp v).audioOut = s.audioOut := rfl
@[simp] theorem State.setSp_framesPresented (s : State) (v : Word) : (s.setSp v).framesPresented = s.framesPresented := rfl
@[simp] theorem State.setSp_hostReply (s : State) (v : Word) : (s.setSp v).hostReply = s.hostReply := rfl
@[simp] theorem State.setSp_errorStream (s : State) (v : Word) : (s.setSp v).errorStream = s.errorStream := rfl
@[simp] theorem State.setSp_shutDown (s : State) (v : Word) : (s.setSp v).shutDown = s.shutDown := rfl
@[simp] theorem State.setSp_freeDraws (s : State) (v : Word) : (s.setSp v).freeDraws = s.freeDraws := rfl
@[simp] theorem State.setSp_read8 (s : State) (v : Word) (x : Word) : (s.setSp v).read8 x = s.read8 x := rfl

/-! `setPc` -/
@[simp] theorem State.setPc_cpu (s : State) (v : Word) : (s.setPc v).cpu = { s.cpu with pc := v } := rfl
@[simp] theorem State.setPc_cursor (s : State) (v : Word) : (s.setPc v).cursor = s.cursor := rfl
@[simp] theorem State.setPc_mem (s : State) (v : Word) : (s.setPc v).mem = s.mem := rfl
@[simp] theorem State.setPc_clock (s : State) (v : Word) : (s.setPc v).clock = s.clock := rfl
@[simp] theorem State.setPc_frameAcc (s : State) (v : Word) : (s.setPc v).frameAcc = s.frameAcc := rfl
@[simp] theorem State.setPc_keys (s : State) (v : Word) : (s.setPc v).keys = s.keys := rfl
@[simp] theorem State.setPc_ula (s : State) (v : Word) : (s.setPc v).ula = s.ula := rfl
@[simp] theorem State.setPc_beeper (s : State) (v : Word) : (s.setPc v).beeper = s.beeper := rfl
@[simp] theorem State.setPc_tape (s : State) (v : Word) : (s.setPc v).tape = s.tape := rfl
@[simp] theorem State.setPc_recorder (s : State) (v : Word) : (s.setPc v).recorder = s.recorder := rfl
@[simp] theorem State.setPc_fault (s : State) (v : Word) : (s.setPc v).fault = s.fault := rfl
@[simp] theorem State.setPc_config (s : State) (v : Word) : (s.setPc v).config = s.config := rfl
@[simp] theorem State.setPc_disk (s : State) (v : Word) : (s.setPc v).disk = s.disk := rfl
@[simp] theorem State.setPc_schedule (s : State) (v : Word) : (s.setPc v).schedule = s.schedule := rfl
@[simp] theorem State.setPc_audioOpen (s : State) (v : Word) : (s.setPc v).audioOpen = s.audioOpen := rfl
@[simp] theorem State.setPc_audioOut (s : State) (v : Word) : (s.setPc v).audioOut = s.audioOut := rfl
@[simp] theorem State.setPc_framesPresented (s : State) (v : Word) : (s.setPc v).framesPresented = s.framesPresented := rfl
@[simp] theorem State.setPc_hostReply (s : State) (v : Word) : (s.setPc v).hostReply = s.hostReply := rfl
@[simp] theorem State.setPc_errorStream (s : State) (v : Word) : (s.setPc v).errorStream = s.errorStream := rfl
@[simp] theorem State.setPc_shutDown (s : State) (v : Word) : (s.setPc v).shutDown = s.shutDown := rfl
@[simp] theorem State.setPc_freeDraws (s : State) (v : Word) : (s.setPc v).freeDraws = s.freeDraws := rfl
@[simp] theorem State.setPc_read8 (s : State) (v : Word) (x : Word) : (s.setPc v).read8 x = s.read8 x := rfl

/-! `setAF` -/
@[simp] theorem State.setAF_cpu (s : State) (w : Byte × Byte) : (s.setAF w).cpu = { s.cpu with a := w.1, f := w.2 } := rfl
@[simp] theorem State.setAF_cursor (s : State) (w : Byte × Byte) : (s.setAF w).cursor = s.cursor := rfl
@[simp] theorem State.setAF_mem (s : State) (w : Byte × Byte) : (s.setAF w).mem = s.mem := rfl
@[simp] theorem State.setAF_clock (s : State) (w : Byte × Byte) : (s.setAF w).clock = s.clock := rfl
@[simp] theorem State.setAF_frameAcc (s : State) (w : Byte × Byte) : (s.setAF w).frameAcc = s.frameAcc := rfl
@[simp] theorem State.setAF_keys (s : State) (w : Byte × Byte) : (s.setAF w).keys = s.keys := rfl
@[simp] theorem State.setAF_ula (s : State) (w : Byte × Byte) : (s.setAF w).ula = s.ula := rfl
@[simp] theorem State.setAF_beeper (s : State) (w : Byte × Byte) : (s.setAF w).beeper = s.beeper := rfl
@[simp] theorem State.setAF_tape (s : State) (w : Byte × Byte) : (s.setAF w).tape = s.tape := rfl
@[simp] theorem State.setAF_recorder (s : State) (w : Byte × Byte) : (s.setAF w).recorder = s.recorder := rfl
@[simp] theorem State.setAF_fault (s : State) (w : Byte × Byte) : (s.setAF w).fault = s.fault := rfl
@[simp] theorem State.setAF_config (s : State) (w : Byte × Byte) : (s.setAF w).config = s.config := rfl
@[simp] theorem State.setAF_disk (s : State) (w : Byte × Byte) : (s.setAF w).disk = s.disk := rfl
@[simp] theorem State.setAF_schedule (s : State) (w : Byte × Byte) : (s.setAF w).schedule = s.schedule := rfl
@[simp] theorem State.setAF_audioOpen (s : State) (w : Byte × Byte) : (s.setAF w).audioOpen = s.audioOpen := rfl
@[simp] theorem State.setAF_audioOut (s : State) (w : Byte × Byte) : (s.setAF w).audioOut = s.audioOut := rfl
@[simp] theorem State.setAF_framesPresented (s : State) (w : Byte × Byte) : (s.setAF w).framesPresented = s.framesPresented := rfl
@[simp] theorem State.setAF_hostReply (s : State) (w : Byte × Byte) : (s.setAF w).hostReply = s.hostReply := rfl
@[simp] theorem State.setAF_errorStream (s : State) (w : Byte × Byte) : (s.setAF w).errorStream = s.errorStream := rfl
@[simp] theorem State.setAF_shutDown (s : State) (w : Byte × Byte) : (s.setAF w).shutDown = s.shutDown := rfl
@[simp] theorem State.setAF_freeDraws (s : State) (w : Byte × Byte) : (s.setAF w).freeDraws = s.freeDraws := rfl
@[simp] theorem State.setAF_read8 (s : State) (w : Byte × Byte) (x : Word) : (s.setAF w).read8 x = s.read8 x := rfl

/-! `setBc` -/
@[simp] theorem State.setBc_cpu (s : State) (v : Word) : (s.setBc v).cpu = { s.cpu with b := hiByte v, c := loByte v } := rfl
@[simp] theorem State.setBc_cursor (s : State) (v : Word) : (s.setBc v).cursor = s.cursor := rfl
@[simp] theorem State.setBc_mem (s : State) (v : Word) : (s.setBc v).mem = s.mem := rfl
@[simp] theorem State.setBc_clock (s : State) (v : Word) : (s.setBc v).clock = s.clock := rfl
@[simp] theorem State.setBc_frameAcc (s : State) (v : Word) : (s.setBc v).frameAcc = s.frameAcc := rfl
@[simp] theorem State.setBc_keys (s : State) (v : Word) : (s.setBc v).keys = s.keys := rfl
@[simp] theorem State.setBc_ula (s : State) (v : Word) : (s.setBc v).ula = s.ula := rfl
@[simp] theorem State.setBc_beeper (s : State) (v : Word) : (s.setBc v).beeper = s.beeper := rfl
@[simp] theorem State.setBc_tape (s : State) (v : Word) : (s.setBc v).tape = s.tape := rfl
@[simp] theorem State.setBc_recorder (s : State) (v : Word) : (s.setBc v).recorder = s.recorder := rfl
@[simp] theorem State.setBc_fault (s : State) (v : Word) : (s.setBc v).fault = s.fault := rfl
@[simp] theorem State.setBc_config (s : State) (v : Word) : (s.setBc v).config = s.config := rfl
@[simp] theorem State.setBc_disk (s : State) (v : Word) : (s.setBc v).disk = s.disk := rfl
@[simp] theorem State.setBc_schedule (s : State) (v : Word) : (s.setBc v).schedule = s.schedule := rfl
@[simp] theorem State.setBc_audioOpen (s : State) (v : Word) : (s.setBc v).audioOpen = s.audioOpen := rfl
@[simp] theorem State.setBc_audioOut (s : State) (v : Word) : (s.setBc v).audioOut = s.audioOut := rfl
@[simp] theorem State.setBc_framesPresented (s : State) (v : Word) : (s.setBc v).framesPresented = s.framesPresented := rfl
@[simp] theorem State.setBc_hostReply (s : State) (v : Word) : (s.setBc v).hostReply = s.hostReply := rfl
@[simp] theorem State.setBc_errorStream (s : State) (v : Word) : (s.setBc v).errorStream = s.errorStream := rfl
@[simp] theorem State.setBc_shutDown (s : State) (v : Word) : (s.setBc v).shutDown = s.shutDown := rfl
@[simp] theorem State.setBc_freeDraws (s : State) (v : Word) : (s.setBc v).freeDraws = s.freeDraws := rfl
@[simp] theorem State.setBc_read8 (s : State) (v : Word) (x : Word) : (s.setBc v).read8 x = s.read8 x := rfl

/-! `setDe` -/
@[simp] theorem State.setDe_cpu (s : State) (v : Word) : (s.setDe v).cpu = { s.cpu with d := hiByte v, e := loByte v } := rfl
@[simp] theorem State.setDe_cursor (s : State) (v : Word) : (s.setDe v).cursor = s.cursor := rfl
@[simp] theorem State.setDe_mem (s : State) (v : Word) : (s.setDe v).mem = s.mem := rfl
@[simp] theorem State.setDe_clock (s : State) (v : Word) : (s.setDe v).clock = s.clock := rfl
@[simp] theorem State.setDe_frameAcc (s : State) (v : Word) : (s.setDe v).frameAcc = s.frameAcc := rfl
@[simp] theorem State.setDe_keys (s : State) (v : Word) : (s.setDe v).keys = s.keys := rfl
@[simp] theorem State.setDe_ula (s : State) (v : Word) : (s.setDe v).ula = s.ula := rfl
@[simp] theorem State.setDe_beeper (s : State) (v : Word) : (s.setDe v).beeper = s.beeper := rfl
@[simp] theorem State.setDe_tape (s : State) (v : Word) : (s.setDe v).tape = s.tape := rfl
@[simp] theorem State.setDe_recorder (s : State) (v : Word) : (s.setDe v).recorder = s.recorder := rfl
@[simp] theorem State.setDe_fault (s : State) (v : Word) : (s.setDe v).fault = s.fault := rfl
@[simp] theorem State.setDe_config (s : State) (v : Word) : (s.setDe v).config = s.config := rfl
@[simp] theorem State.setDe_disk (s : State) (v : Word) : (s.setDe v).disk = s.disk := rfl
@[simp] theorem State.setDe_schedule (s : State) (v : Word) : (s.setDe v).schedule = s.schedule := rfl
@[simp] theorem State.setDe_audioOpen (s : State) (v : Word) : (s.setDe v).audioOpen = s.audioOpen := rfl
@[simp] theorem State.setDe_audioOut (s : State) (v : Word) : (s.setDe v).audioOut = s.audioOut := rfl
@[simp] theorem State.setDe_framesPresented (s : State) (v : Word) : (s.setDe v).framesPresented = s.framesPresented := rfl
@[simp] theorem State.setDe_hostReply (s : State) (v : Word) : (s.setDe v).hostReply = s.hostReply := rfl
@[simp] theorem State.setDe_errorStream (s : State) (v : Word) : (s.setDe v).errorStream = s.errorStream := rfl
@[simp] theorem State.setDe_shutDown (s : State) (v : Word) : (s.setDe v).shutDown = s.shutDown := rfl
@[simp] theorem State.setDe_freeDraws (s : State) (v : Word) : (s.setDe v).freeDraws = s.freeDraws := rfl
@[simp] theorem State.setDe_read8 (s : State) (v : Word) (x : Word) : (s.setDe v).read8 x = s.read8 x := rfl

/-! `setHl` -/
@[simp] theorem State.setHl_cpu (s : State) (v : Word) : (s.setHl v).cpu = { s.cpu with h := hiByte v, l := loByte v } := rfl
@[simp] theorem State.setHl_cursor (s : State) (v : Word) : (s.setHl v).cursor = s.cursor := rfl
@[simp] theorem State.setHl_mem (s : State) (v : Word) : (s.setHl v).mem = s.mem := rfl
@[simp] theorem State.setHl_clock (s : State) (v : Word) : (s.setHl v).clock = s.clock := rfl
@[simp] theorem State.setHl_frameAcc (s : State) (v : Word) : (s.setHl v).frameAcc = s.frameAcc := rfl
@[simp] theorem State.setHl_keys (s : State) (v : Word) : (s.setHl v).keys = s.keys := rfl
@[simp] theorem State.setHl_ula (s : State) (v : Word) : (s.setHl v).ula = s.ula := rfl
@[simp] theorem State.setHl_beeper (s : State) (v : Word) : (s.setHl v).beeper = s.beeper := rfl
@[simp] theorem State.setHl_tape (s : State) (v : Word) : (s.setHl v).tape = s.tape := rfl
@[simp] theorem State.setHl_recorder (s : State) (v : Word) : (s.setHl v).recorder = s.recorder := rfl
@[simp] theorem State.setHl_fault (s : State) (v : Word) : (s.setHl v).fault = s.fault := rfl
@[simp] theorem State.setHl_config (s : State) (v : Word) : (s.setHl v).config = s.config := rfl
@[simp] theorem State.setHl_disk (s : State) (v : Word) : (s.setHl v).disk = s.disk := rfl
@[simp] theorem State.setHl_schedule (s : State) (v : Word) : (s.setHl v).schedule = s.schedule := rfl
@[simp] theorem State.setHl_audioOpen (s : State) (v : Word) : (s.setHl v).audioOpen = s.audioOpen := rfl
@[simp] theorem State.setHl_audioOut (s : State) (v : Word) : (s.setHl v).audioOut = s.audioOut := rfl
@[simp] theorem State.setHl_framesPresented (s : State) (v : Word) : (s.setHl v).framesPresented = s.framesPresented := rfl
@[simp] theorem State.setHl_hostReply (s : State) (v : Word) : (s.setHl v).hostReply = s.hostReply := rfl
@[simp] theorem State.setHl_errorStream (s : State) (v : Word) : (s.setHl v).errorStream = s.errorStream := rfl
@[simp] theorem State.setHl_shutDown (s : State) (v : Word) : (s.setHl v).shutDown = s.shutDown := rfl
@[simp] theorem State.setHl_freeDraws (s : State) (v : Word) : (s.setHl v).freeDraws = s.freeDraws := rfl
@[simp] theorem State.setHl_read8 (s : State) (v : Word) (x : Word) : (s.setHl v).read8 x = s.read8 x := rfl

/-! `setAfPair` -/
@[simp] theorem State.setAfPair_cpu (s : State) (v : Word) : (s.setAfPair v).cpu = { s.cpu with a := hiByte v, f := loByte v } := rfl
@[simp] theorem State.setAfPair_cursor (s : State) (v : Word) : (s.setAfPair v).cursor = s.cursor := rfl
@[simp] theorem State.setAfPair_mem (s : State) (v : Word) : (s.setAfPair v).mem = s.mem := rfl
@[simp] theorem State.setAfPair_clock (s : State) (v : Word) : (s.setAfPair v).clock = s.clock := rfl
@[simp] theorem State.setAfPair_frameAcc (s : State) (v : Word) : (s.setAfPair v).frameAcc = s.frameAcc := rfl
@[simp] theorem State.setAfPair_keys (s : State) (v : Word) : (s.setAfPair v).keys = s.keys := rfl
@[simp] theorem State.setAfPair_ula (s : State) (v : Word) : (s.setAfPair v).ula = s.ula := rfl
@[simp] theorem State.setAfPair_beeper (s : State) (v : Word) : (s.setAfPair v).beeper = s.beeper := rfl
@[simp] theorem State.setAfPair_tape (s : State) (v : Word) : (s.setAfPair v).tape = s.tape := rfl
@[simp] theorem State.setAfPair_recorder (s : State) (v : Word) : (s.setAfPair v).recorder = s.recorder := rfl
@[simp] theorem State.setAfPair_fault (s : State) (v : Word) : (s.setAfPair v).fault = s.fault := rfl
@[simp] theorem State.setAfPair_config (s : State) (v : Word) : (s.setAfPair v).config = s.config := rfl
@[simp] theorem State.setAfPair_disk (s : State) (v : Word) : (s.setAfPair v).disk = s.disk := rfl
@[simp] theorem State.setAfPair_schedule (s : State) (v : Word) : (s.setAfPair v).schedule = s.schedule := rfl
@[simp] theorem State.setAfPair_audioOpen (s : State) (v : Word) : (s.setAfPair v).audioOpen = s.audioOpen := rfl
@[simp] theorem State.setAfPair_audioOut (s : State) (v : Word) : (s.setAfPair v).audioOut = s.audioOut := rfl
@[simp] theorem State.setAfPair_framesPresented (s : State) (v : Word) : (s.setAfPair v).framesPresented = s.framesPresented := rfl
@[simp] theorem State.setAfPair_hostReply (s : State) (v : Word) : (s.setAfPair v).hostReply = s.hostReply := rfl
@[simp] theorem State.setAfPair_errorStream (s : State) (v : Word) : (s.setAfPair v).errorStream = s.errorStream := rfl
@[simp] theorem State.setAfPair_shutDown (s : State) (v : Word) : (s.setAfPair v).shutDown = s.shutDown := rfl
@[simp] theorem State.setAfPair_freeDraws (s : State) (v : Word) : (s.setAfPair v).freeDraws = s.freeDraws := rfl
@[simp] theorem State.setAfPair_read8 (s : State) (v : Word) (x : Word) : (s.setAfPair v).read8 x = s.read8 x := rfl

/-! `setReg8` -/
@[simp] theorem State.setReg8_cpu (s : State) (r : Reg8) (v : Byte) : (s.setReg8 r v).cpu = s.cpu.setReg8 r v := rfl
@[simp] theorem State.setReg8_cursor (s : State) (r : Reg8) (v : Byte) : (s.setReg8 r v).cursor = s.cursor := rfl
@[simp] theorem State.setReg8_mem (s : State) (r : Reg8) (v : Byte) : (s.setReg8 r v).mem = s.mem := rfl
@[simp] theorem State.setReg8_clock (s : State) (r : Reg8) (v : Byte) : (s.setReg8 r v).clock = s.clock := rfl
@[simp] theorem State.setReg8_frameAcc (s : State) (r : Reg8) (v : Byte) : (s.setReg8 r v).frameAcc = s.frameAcc := rfl
@[simp] theorem State.setReg8_keys (s : State) (r : Reg8) (v : Byte) : (s.setReg8 r v).keys = s.keys := rfl
@[simp] theorem State.setReg8_ula (s : State) (r : Reg8) (v : Byte) : (s.setReg8 r v).ula = s.ula := rfl
@[simp] theorem State.setReg8_beeper (s : State) (r : Reg8) (v : Byte) : (s.setReg8 r v).beeper = s.beeper := rfl
@[simp] theorem State.setReg8_tape (s : State) (r : Reg8) (v : Byte) : (s.setReg8 r v).tape = s.tape := rfl
@[simp] theorem State.setReg8_recorder (s : State) (r : Reg8) (v : Byte) : (s.setReg8 r v).recorder = s.recorder := rfl
@[simp] theorem State.setReg8_fault (s : State) (r : Reg8) (v : Byte) : (s.setReg8 r v).fault = s.fault := rfl
@[simp] theorem State.setReg8_config (s : State) (r : Reg8) (v : Byte) : (s.setReg8 r v).config = s.config := rfl
@[simp] theorem State.setReg8_disk (s : State) (r : Reg8) (v : Byte) : (s.setReg8 r v).disk = s.disk := rfl
@[simp] theorem State.setReg8_schedule (s : State) (r : Reg8) (v : Byte) : (s.setReg8 r v).schedule = s.schedule := rfl
@[simp] theorem State.setReg8_audioOpen (s : State) (r : Reg8) (v : Byte) : (s.setReg8 r v).audioOpen = s.audioOpen := rfl
@[simp] theorem State.setReg8_audioOut (s : State) (r : Reg8) (v : Byte) : (s.setReg8 r v).audioOut = s.audioOut := rfl
@[simp] theorem State.setReg8_framesPresented (s : State) (r : Reg8) (v : Byte) : (s.setReg8 r v).framesPresented = s.framesPresented := rfl
@[simp] theorem State.setReg8_hostReply (s : State) (r : Reg8) (v : Byte) : (s.setReg8 r v).hostReply = s.hostReply := rfl
@[simp] theorem State.setReg8_errorStream (s : State) (r : Reg8) (v : Byte) : (s.setReg8 r v).errorStream = s.errorStream := rfl
@[simp] theorem State.setReg8_shutDown (s : State) (r : Reg8) (v : Byte) : (s.setReg8 r v).shutDown = s.shutDown := rfl
@[simp] theorem State.setReg8_freeDraws (s : State) (r : Reg8) (v : Byte) : (s.setReg8 r v).freeDraws = s.freeDraws := rfl
@[simp] theorem State.setReg8_read8 (s : State) (r : Reg8) (v : Byte) (x : Word) : (s.setReg8 r v).read8 x = s.read8 x := rfl

/-! `fetched` -/
@[simp] theorem State.fetched_cpu (s : State) (n k t : Nat) : (s.fetched n k t).cpu = { s.cpu with pc := s.cpu.pc + BitVec.ofNat 16 n, r := incRTimes k s.cpu.r } := rfl
@[simp] theorem State.fetched_cursor (s : State) (n k t : Nat) : (s.fetched n k t).cursor = { s.cursor with t := s.cursor.t + t } := rfl
@[simp] theorem State.fetched_mem (s : State) (n k t : Nat) : (s.fetched n k t).mem = s.mem := rfl
@[simp] theorem State.fetched_clock (s : State) (n k t : Nat) : (s.fetched n k t).clock = s.clock := rfl
@[simp] theorem State.fetched_frameAcc (s : State) (n k t : Nat) : (s.fetched n k t).frameAcc = s.frameAcc := rfl
@[simp] theorem State.fetched_keys (s : State) (n k t : Nat) : (s.fetched n k t).keys = s.keys := rfl
@[simp] theorem State.fetched_ula (s : State) (n k t : Nat) : (s.fetched n k t).ula = s.ula := rfl
@[simp] theorem State.fetched_beeper (s : State) (n k t : Nat) : (s.fetched n k t).beeper = s.beeper := rfl
@[simp] theorem State.fetched_tape (s : State) (n k t : Nat) : (s.fetched n k t).tape = s.tape := rfl
@[simp] theorem State.fetched_recorder (s : State) (n k t : Nat) : (s.fetched n k t).recorder = s.recorder := rfl
@[simp] theorem State.fetched_fault (s : State) (n k t : Nat) : (s.fetched n k t).fault = s.fault := rfl
@[simp] theorem State.fetched_config (s : State) (n k t : Nat) : (s.fetched n k t).config = s.config := rfl
@[simp] theorem State.fetched_disk (s : State) (n k t : Nat) : (s.fetched n k t).disk = s.disk := rfl
@[simp] theorem State.fetched_schedule (s : State) (n k t : Nat) : (s.fetched n k t).schedule = s.schedule := rfl
@[simp] theorem State.fetched_audioOpen (s : State) (n k t : Nat) : (s.fetched n k t).audioOpen = s.audioOpen := rfl
@[simp] theorem State.fetched_audioOut (s : State) (n k t : Nat) : (s.fetched n k t).audioOut = s.audioOut := rfl
@[simp] theorem State.fetched_framesPresented (s : State) (n k t : Nat) : (s.fetched n k t).framesPresented = s.framesPresented := rfl
@[simp] theorem State.fetched_hostReply (s : State) (n k t : Nat) : (s.fetched n k t).hostReply = s.hostReply := rfl
@[simp] theorem State.fetched_errorStream (s : State) (n k t : Nat) : (s.fetched n k t).errorStream = s.errorStream := rfl
@[simp] theorem State.fetched_shutDown (s : State) (n k t : Nat) : (s.fetched n k t).shutDown = s.shutDown := rfl
@[simp] theorem State.fetched_freeDraws (s : State) (n k t : Nat) : (s.fetched n k t).freeDraws = s.freeDraws := rfl
@[simp] theorem State.fetched_read8 (s : State) (n k t : Nat) (x : Word) : (s.fetched n k t).read8 x = s.read8 x := rfl

/-! `fetchedIdx` -/
@[simp] theorem State.fetchedIdx_cpu (s : State) (xy : Xy) (n k t : Nat) : (s.fetchedIdx xy n k t).cpu = { s.cpu with pc := s.cpu.pc + BitVec.ofNat 16 n, r := incRTimes k s.cpu.r } := rfl
@[simp] theorem State.fetchedIdx_cursor (s : State) (xy : Xy) (n k t : Nat) : (s.fetchedIdx xy n k t).cursor = { s.cursor with t := s.cursor.t + t, lastXy := some xy } := rfl
@[simp] theorem State.fetchedIdx_mem (s : State) (xy : Xy) (n k t : Nat) : (s.fetchedIdx xy n k t).mem = s.mem := rfl
@[simp] theorem State.fetchedIdx_clock (s : State) (xy : Xy) (n k t : Nat) : (s.fetchedIdx xy n k t).clock = s.clock := rfl
@[simp] theorem State.fetchedIdx_frameAcc (s : State) (xy : Xy) (n k t : Nat) : (s.fetchedIdx xy n k t).frameAcc = s.frameAcc := rfl
@[simp] theorem State.fetchedIdx_keys (s : State) (xy : Xy) (n k t : Nat) : (s.fetchedIdx xy n k t).keys = s.keys := rfl
@[simp] theorem State.fetchedIdx_ula (s : State) (xy : Xy) (n k t : Nat) : (s.fetchedIdx xy n k t).ula = s.ula := rfl
@[simp] theorem State.fetchedIdx_beeper (s : State) (xy : Xy) (n k t : Nat) : (s.fetchedIdx xy n k t).beeper = s.beeper := rfl
@[simp] theorem State.fetchedIdx_tape (s : State) (xy : Xy) (n k t : Nat) : (s.fetchedIdx xy n k t).tape = s.tape := rfl
@[simp] theorem State.fetchedIdx_recorder (s : State) (xy : Xy) (n k t : Nat) : (s.fetchedIdx xy n k t).recorder = s.recorder := rfl
@[simp] theorem State.fetchedIdx_fault (s : State) (xy : Xy) (n k t : Nat) : (s.fetchedIdx xy n k t).fault = s.fault := rfl
@[simp] theorem State.fetchedIdx_config (s : State) (xy : Xy) (n k t : Nat) : (s.fetchedIdx xy n k t).config = s.config := rfl
@[simp] theorem State.fetchedIdx_disk (s : State) (xy : Xy) (n k t : Nat) : (s.fetchedIdx xy n k t).disk = s.disk := rfl
@[simp] theorem State.fetchedIdx_schedule (s : State) (xy : Xy) (n k t : Nat) : (s.fetchedIdx xy n k t).schedule = s.schedule := rfl
@[simp] theorem State.fetchedIdx_audioOpen (s : State) (xy : Xy) (n k t : Nat) : (s.fetchedIdx xy n k t).audioOpen = s.audioOpen := rfl
@[simp] theorem State.fetchedIdx_audioOut (s : State) (xy : Xy) (n k t : Nat) : (s.fetchedIdx xy n k t).audioOut = s.audioOut := rfl
@[simp] theorem State.fetchedIdx_framesPresented (s : State) (xy : Xy) (n k t : Nat) : (s.fetchedIdx xy n k t).framesPresented = s.framesPresented := rfl
@[simp] theorem State.fetchedIdx_hostReply (s : State) (xy : Xy) (n k t : Nat) : (s.fetchedIdx xy n k t).hostReply = s.hostReply := rfl
@[simp] theorem State.fetchedIdx_errorStream (s : State) (xy : Xy) (n k t : Nat) : (s.fetchedIdx xy n k t).errorStream = s.errorStream := rfl
@[simp] theorem State.fetchedIdx_shutDown (s : State) (xy : Xy) (n k t : Nat) : (s.fetchedIdx xy n k t).shutDown = s.shutDown := rfl
@[simp] theorem State.fetchedIdx_freeDraws (s : State) (xy : Xy) (n k t : Nat) : (s.fetchedIdx xy n k t).freeDraws = s.freeDraws := rfl
@[simp] theorem State.fetchedIdx_read8 (s : State) (xy : Xy) (n k t : Nat) (x : Word) : (s.fetchedIdx xy n k t).read8 x = s.read8 x := rfl

/-! `fetchedXy` -/
@[simp] theorem State.fetchedXy_cpu (s : State) (xy : Xy) : (s.fetchedXy xy).cpu = { s.cpu with pc := s.cpu.pc + 1#16, r := incR s.cpu.r } := rfl
@[simp] theorem State.fetchedXy_cursor (s : State) (xy : Xy) : (s.fetchedXy xy).cursor = { s.cursor with t := s.cursor.t + 4, lastXy := some xy } := rfl
@[simp] theorem State.fetchedXy_mem (s : State) (xy : Xy) : (s.fetchedXy xy).mem = s.mem := rfl
@[simp] theorem State.fetchedXy_clock (s : State) (xy : Xy) : (s.fetchedXy xy).clock = s.clock := rfl
@[simp] theorem State.fetchedXy_frameAcc (s : State) (xy : Xy) : (s.fetchedXy xy).frameAcc = s.frameAcc := rfl
@[simp] theorem State.fetchedXy_keys (s : State) (xy : Xy) : (s.fetchedXy xy).keys = s.keys := rfl
@[simp] theorem State.fetchedXy_ula (s : State) (xy : Xy) : (s.fetchedXy xy).ula = s.ula := rfl
@[simp] theorem State.fetchedXy_beeper (s : State) (xy : Xy) : (s.fetchedXy xy).beeper = s.beeper := rfl
@[simp] theorem State.fetchedXy_tape (s : State) (xy : Xy) : (s.fetchedXy xy).tape = s.tape := rfl
@[simp] theorem State.fetchedXy_recorder (s : State) (xy : Xy) : (s.fetchedXy xy).recorder = s.recorder := rfl
@[simp] theorem State.fetchedXy_fault (s : State) (xy : Xy) : (s.fetchedXy xy).fault = s.fault := rfl
@[simp] theorem State.fetchedXy_config (s : State) (xy : Xy) : (s.fetchedXy xy).config = s.config := rfl
@[simp] theorem State.fetchedXy_disk (s : State) (xy : Xy) : (s.fetchedXy xy).disk = s.disk := rfl
@[simp] theorem State.fetchedXy_schedule (s : State) (xy : Xy) : (s.fetchedXy xy).schedule = s.schedule := rfl
@[simp] theorem State.fetchedXy_audioOpen (s : State) (xy : Xy) : (s.fetchedXy xy).audioOpen = s.audioOpen := rfl
@[simp] theorem State.fetchedXy_audioOut (s : State) (xy : Xy) : (s.fetchedXy xy).audioOut = s.audioOut := rfl
@[simp] theorem State.fetchedXy_framesPresented (s : State) (xy : Xy) : (s.fetchedXy xy).framesPresented = s.framesPresented := rfl
@[simp] theorem State.fetchedXy_hostReply (s : State) (xy : Xy) : (s.fetchedXy xy).hostReply = s.hostReply := rfl
@[simp] theorem State.fetchedXy_errorStream (s : State) (xy : Xy) : (s.fetchedXy xy).errorStream = s.errorStream := rfl
@[simp] theorem State.fetchedXy_shutDown (s : State) (xy : Xy) : (s.fetchedXy xy).shutDown = s.shutDown := rfl
@[simp] theorem State.fetchedXy_freeDraws (s : State) (xy : Xy) : (s.fetchedXy xy).freeDraws = s.freeDraws := rfl
@[simp] theorem State.fetchedXy_read8 (s : State) (xy : Xy) (x : Word) : (s.fetchedXy xy).read8 x = s.read8 x := rfl

/-! `tick` -/
@[simp] theorem State.tick_cpu (s : State) (t : Nat) : (s.tick t).cpu = s.cpu := rfl
@[simp] theorem State.tick_cursor (s : State) (t : Nat) : (s.tick t).cursor = { s.cursor with t := s.cursor.t + t } := rfl
@[simp] theorem State.tick_mem (s : State) (t : Nat) : (s.tick t).mem = s.mem := rfl
@[simp] theorem State.tick_clock (s : State) (t : Nat) : (s.tick t).clock = s.clock := rfl
@[simp] theorem State.tick_frameAcc (s : State) (t : Nat) : (s.tick t).frameAcc = s.frameAcc := rfl
@[simp] theorem State.tick_keys (s : State) (t : Nat) : (s.tick t).keys = s.keys := rfl
@[simp] theorem State.tick_ula (s : State) (t : Nat) : (s.tick t).ula = s.ula := rfl
@[simp] theorem State.tick_beeper (s : State) (t : Nat) : (s.tick t).beeper = s.beeper := rfl
@[simp] theorem State.tick_tape (s : State) (t : Nat) : (s.tick t).tape = s.tape := rfl
@[simp] theorem State.tick_recorder (s : State) (t : Nat) : (s.tick t).recorder = s.recorder := rfl
@[simp] theorem State.tick_fault (s : State) (t : Nat) : (s.tick t).fault = s.fault := rfl
@[simp] theorem State.tick_config (s : State) (t : Nat) : (s.tick t).config = s.config := rfl
@[simp] theorem State.tick_disk (s : State) (t : Nat) : (s.tick t).disk = s.disk := rfl
@[simp] theorem State.tick_schedule (s : State) (t : Nat) : (s.tick t).schedule = s.schedule := rfl
@[simp] theorem State.tick_audioOpen (s : State) (t : Nat) : (s.tick t).audioOpen = s.audioOpen := rfl
@[simp] theorem State.tick_audioOut (s : State) (t : Nat) : (s.tick t).audioOut = s.audioOut := rfl
@[simp] theorem State.tick_framesPresented (s : State) (t : Nat) : (s.tick t).framesPresented = s.framesPresented := rfl
@[simp] theorem State.tick_hostReply (s : State) (t : Nat) : (s.tick t).hostReply = s.hostReply := rfl
@[simp] theorem State.tick_errorStream (s : State) (t : Nat) : (s.tick t).errorStream = s.errorStream := rfl
@[simp] theorem State.tick_shutDown (s : State) (t : Nat) : (s.tick t).shutDown = s.shutDown := rfl
@[simp] theorem State.tick_freeDraws (s : State) (t : Nat) : (s.tick t).freeDraws = s.freeDraws := rfl
@[simp] theorem State.tick_read8 (s : State) (t : Nat) (x : Word) : (s.tick t).read8 x = s.read8 x := rfl

/-! `setRp` -/
@[simp] theorem State.setRp_cursor (s : State) (p : Rp) (v : Word) : (s.setRp p v).cursor = s.cursor := by cases p <;> rfl
@[simp] theorem State.setRp_mem (s : State) (p : Rp) (v : Word) : (s.setRp p v).mem = s.mem := by cases p <;> rfl
@[simp] theorem State.setRp_clock (s : State) (p : Rp) (v : Word) : (s.setRp p v).clock = s.clock := by cases p <;> rfl
@[simp] theorem State.setRp_frameAcc (s : State) (p : Rp) (v : Word) : (s.setRp p v).frameAcc = s.frameAcc := by cases p <;> rfl
@[simp] theorem State.setRp_keys (s : State) (p : Rp) (v : Word) : (s.setRp p v).keys = s.keys := by cases p <;> rfl
@[simp] theorem State.setRp_ula (s : State) (p : Rp) (v : Word) : (s.setRp p v).ula = s.ula := by cases p <;> rfl
@[simp] theorem State.setRp_beeper (s : State) (p : Rp) (v : Word) : (s.setRp p v).beeper = s.beeper := by cases p <;> rfl
@[simp] theorem State.setRp_tape (s : State) (p : Rp) (v : Word) : (s.setRp p v).tape = s.tape := by cases p <;> rfl
@[simp] theorem State.setRp_recorder (s : State) (p : Rp) (v : Word) : (s.setRp p v).recorder = s.recorder := by cases p <;> rfl
@[simp] theorem State.setRp_fault (s : State) (p : Rp) (v : Word) : (s.setRp p v).fault = s.fault := by cases p <;> rfl
@[simp] theorem State.setRp_config (s : State) (p : Rp) (v : Word) : (s.setRp p v).config = s.config := by cases p <;> rfl
@[simp] theorem State.setRp_disk (s : State) (p : Rp) (v : Word) : (s.setRp p v).disk = s.disk := by cases p <;> rfl
@[simp] theorem State.setRp_schedule (s : State) (p : Rp) (v : Word) : (s.setRp p v).schedule = s.schedule := by cases p <;> rfl
@[simp] theorem State.setRp_audioOpen (s : State) (p : Rp) (v : Word) : (s.setRp p v).audioOpen = s.audioOpen := by cases p <;> rfl
@[simp] theorem State.setRp_audioOut (s : State) (p : Rp) (v : Word) : (s.setRp p v).audioOut = s.audioOut := by cases p <;> rfl
@[simp] theorem State.setRp_framesPresented (s : State) (p : Rp) (v : Word) : (s.setRp p v).framesPresented = s.framesPresented := by cases p <;> rfl
@[simp] theorem State.setRp_hostReply (s : State) (p : Rp) (v : Word) : (s.setRp p v).hostReply = s.hostReply := by cases p <;> rfl
@[simp] theorem State.setRp_errorStream (s : State) (p : Rp) (v : Word) : (s.setRp p v).errorStream = s.errorStream := by cases p <;> rfl
@[simp] theorem State.setRp_shutDown (s : State) (p : Rp) (v : Word) : (s.setRp p v).shutDown = s.shutDown := by cases p <;> rfl
@[simp] theorem State.setRp_freeDraws (s : State) (p : Rp) (v : Word) : (s.setRp p v).freeDraws = s.freeDraws := by cases p <;> rfl
@[simp] theorem State.setRp_read8 (s : State) (p : Rp) (v : Word) (x : Word) : (s.setRp p v).read8 x = s.read8 x := by cases p <;> rfl

/-! `setRp2` -/
@[simp] theorem State.setRp2_cursor (s : State) (p : Rp2) (v : Word) : (s.setRp2 p v).cursor = s.cursor := by cases p <;> rfl
@[simp] theorem State.setRp2_mem (s : State) (p : Rp2) (v : Word) : (s.setRp2 p v).mem = s.mem := by cases p <;> rfl
@[simp] theorem State.setRp2_clock (s : State) (p : Rp2) (v : Word) : (s.setRp2 p v).clock = s.clock := by cases p <;> rfl
@[simp] theorem State.setRp2_frameAcc (s : State) (p : Rp2) (v : Word) : (s.setRp2 p v).frameAcc = s.frameAcc := by cases p <;> rfl
@[simp] theorem State.setRp2_keys (s : State) (p : Rp2) (v : Word) : (s.setRp2 p v).keys = s.keys := by cases p <;> rfl
@[simp] theorem State.setRp2_ula (s : State) (p : Rp2) (v : Word) : (s.setRp2 p v).ula = s.ula := by cases p <;> rfl
@[simp] theorem State.setRp2_beeper (s : State) (p : Rp2) (v : Word) : (s.setRp2 p v).beeper = s.beeper := by cases p <;> rfl
@[simp] theorem State.setRp2_tape (s : State) (p : Rp2) (v : Word) : (s.setRp2 p v).tape = s.tape := by cases p <;> rfl
@[simp] theorem State.setRp2_recorder (s : State) (p : Rp2) (v : Word) : (s.setRp2 p v).recorder = s.recorder := by cases p <;> rfl
@[simp] theorem State.setRp2_fault (s : State) (p : Rp2) (v : Word) : (s.setRp2 p v).fault = s.fault := by cases p <;> rfl
@[simp] theorem State.setRp2_config (s : State) (p : Rp2) (v : Word) : (s.setRp2 p v).config = s.config := by cases p <;> rfl
@[simp] theorem State.setRp2_disk (s : State) (p : Rp2) (v : Word) : (s.setRp2 p v).disk = s.disk := by cases p <;> rfl
@[simp] theorem State.setRp2_schedule (s : State) (p : Rp2) (v : Word) : (s.setRp2 p v).schedule = s.schedule := by cases p <;> rfl
@[simp] theorem State.setRp2_audioOpen (s : State) (p : Rp2) (v : Word) : (s.setRp2 p v).audioOpen = s.audioOpen := by cases p <;> rfl
@[simp] theorem State.setRp2_audioOut (s : State) (p : Rp2) (v : Word) : (s.setRp2 p v).audioOut = s.audioOut := by cases p <;> rfl
@[simp] theorem State.setRp2_framesPresented (s : State) (p : Rp2) (v : Word) : (s.setRp2 p v).framesPresented = s.framesPresented := by cases p <;> rfl
@[simp] theorem State.setRp2_hostReply (s : State) (p : Rp2) (v : Word) : (s.setRp2 p v).hostReply = s.hostReply := by cases p <;> rfl
@[simp] theorem State.setRp2_errorStream (s : State) (p : Rp2) (v : Word) : (s.setRp2 p v).errorStream = s.errorStream := by cases p <;> rfl
@[simp] theorem State.setRp2_shutDown (s : State) (p : Rp2) (v : Word) : (s.setRp2 p v).shutDown = s.shutDown := by cases p <;> rfl
@[simp] theorem State.setRp2_freeDraws (s : State) (p : Rp2) (v : Word) : (s.setRp2 p v).freeDraws = s.freeDraws := by cases p <;> rfl
@[simp] theorem State.setRp2_read8 (s : State) (p : Rp2) (v : Word) (x : Word) : (s.setRp2 p v).read8 x = s.read8 x := by cases p <;> rfl

/-! `setXy` -/
@[simp] theorem State.setXy_cursor (s : State) (xy : Xy) (v : Word) : (s.setXy xy v).cursor = s.cursor := by cases xy <;> rfl
@[simp] theorem State.setXy_mem (s : State) (xy : Xy) (v : Word) : (s.setXy xy v).mem = s.mem := by cases xy <;> rfl
@[simp] theorem State.setXy_clock (s : State) (xy : Xy) (v : Word) : (s.setXy xy v).clock = s.clock := by cases xy <;> rfl
@[simp] theorem State.setXy_frameAcc (s : State) (xy : Xy) (v : Word) : (s.setXy xy v).frameAcc = s.frameAcc := by cases xy <;> rfl
@[simp] theorem State.setXy_keys (s : State) (xy : Xy) (v : Word) : (s.setXy xy v).keys = s.keys := by cases xy <;> rfl
@[simp] theorem State.setXy_ula (s : State) (xy : Xy) (v : Word) : (s.setXy xy v).ula = s.ula := by cases xy <;> rfl
@[simp] theorem State.setXy_beeper (s : State) (xy : Xy) (v : Word) : (s.setXy xy v).beeper = s.beeper := by cases xy <;> rfl
@[simp] theorem State.setXy_tape (s : State) (xy : Xy) (v : Word) : (s.setXy xy v).tape = s.tape := by cases xy <;> rfl
@[simp] theorem State.setXy_recorder (s : State) (xy : Xy) (v : Word) : (s.setXy xy v).recorder = s.recorder := by cases xy <;> rfl
@[simp] theorem State.setXy_fault (s : State) (xy : Xy) (v : Word) : (s.setXy xy v).fault = s.fault := by cases xy <;> rfl
@[simp] theorem State.setXy_config (s : State) (xy : Xy) (v : Word) : (s.setXy xy v).config = s.config := by cases xy <;> rfl
@[simp] theorem State.setXy_disk (s : State) (xy : Xy) (v : Word) : (s.setXy xy v).disk = s.disk := by cases xy <;> rfl
@[simp] theorem State.setXy_schedule (s : State) (xy : Xy) (v : Word) : (s.setXy xy v).schedule = s.schedule := by cases xy <;> rfl
@[simp] theorem State.setXy_audioOpen (s : State) (xy : Xy) (v : Word) : (s.setXy xy v).audioOpen = s.audioOpen := by cases xy <;> rfl
@[simp] theorem State.setXy_audioOut (s : State) (xy : Xy) (v : Word) : (s.setXy xy v).audioOut = s.audioOut := by cases xy <;> rfl
@[simp] theorem State.setXy_framesPresented (s : State) (xy : Xy) (v : Word) : (s.setXy xy v).framesPresented = s.framesPresented := by cases xy <;> rfl
@[simp] theorem State.setXy_hostReply (s : State) (xy : Xy) (v : Word) : (s.setXy xy v).hostReply = s.hostReply := by cases xy <;> rfl
@[simp] theorem State.setXy_errorStream (s : State) (xy : Xy) (v : Word) : (s.setXy xy v).errorStream = s.errorStream := by cases xy <;> rfl
@[simp] theorem State.setXy_shutDown (s : State) (xy : Xy) (v : Word) : (s.setXy xy v).shutDown = s.shutDown := by cases xy <;> rfl
@[simp] theorem State.setXy_freeDraws (s : State) (xy : Xy) (v : Word) : (s.setXy xy v).freeDraws = s.freeDraws := by cases xy <;> rfl
@[simp] theorem State.setXy_read8 (s : State) (xy : Xy) (v : Word) (x : Word) : (s.setXy xy v).read8 x = s.read8 x := by cases xy <;> rfl

/-! `setHalf` -/
@[simp] theorem State.setHalf_cursor (s : State) (xy : Xy) (k : Half) (v : Byte) : (s.setHalf xy k v).cursor = s.cursor := by cases xy <;> cases k <;> rfl
@[simp] theorem State.setHalf_mem (s : State) (xy : Xy) (k : Half) (v : Byte) : (s.setHalf xy k v).mem = s.mem := by cases xy <;> cases k <;> rfl
@[simp] theorem State.setHalf_clock (s : State) (xy : Xy) (k : Half) (v : Byte) : (s.setHalf xy k v).clock = s.clock := by cases xy <;> cases k <;> rfl
@[simp] theorem State.setHalf_frameAcc (s : State) (xy : Xy) (k : Half) (v : Byte) : (s.setHalf xy k v).frameAcc = s.frameAcc := by cases xy <;> cases k <;> rfl
@[simp] theorem State.setHalf_keys (s : State) (xy : Xy) (k : Half) (v : Byte) : (s.setHalf xy k v).keys = s.keys := by cases xy <;> cases k <;> rfl
@[simp] theorem State.setHalf_ula (s : State) (xy : Xy) (k : Half) (v : Byte) : (s.setHalf xy k v).ula = s.ula := by cases xy <;> cases k <;> rfl
@[simp] theorem State.setHalf_beeper (s : State) (xy : Xy) (k : Half) (v : Byte) : (s.setHalf xy k v).beeper = s.beeper := by cases xy <;> cases k <;> rfl
@[simp] theorem State.setHalf_tape (s : State) (xy : Xy) (k : Half) (v : Byte) : (s.setHalf xy k v).tape = s.tape := by cases xy <;> cases k <;> rfl
@[simp] theorem State.setHalf_recorder (s : State) (xy : Xy) (k : Half) (v : Byte) : (s.setHalf xy k v).recorder = s.recorder := by cases xy <;> cases k <;> rfl
@[simp] theorem State.setHalf_fault (s : State) (xy : Xy) (k : Half) (v : Byte) : (s.setHalf xy k v).fault = s.fault := by cases xy <;> cases k <;> rfl
@[simp] theorem State.setHalf_config (s : State) (xy : Xy) (k : Half) (v : Byte) : (s.setHalf xy k v).config = s.config := by cases xy <;> cases k <;> rfl
@[simp] theorem State.setHalf_disk (s : State) (xy : Xy) (k : Half) (v : Byte) : (s.setHalf xy k v).disk = s.disk := by cases xy <;> cases k <;> rfl
@[simp] theorem State.setHalf_schedule (s : State) (xy : Xy) (k : Half) (v : Byte) : (s.setHalf xy k v).schedule = s.schedule := by cases xy <;> cases k <;> rfl
@[simp] theorem State.setHalf_audioOpen (s : State) (xy : Xy) (k : Half) (v : Byte) : (s.setHalf xy k v).audioOpen = s.audioOpen := by cases xy <;> cases k <;> rfl
@[simp] theorem State.setHalf_audioOut (s : State) (xy : Xy) (k : Half) (v : Byte) : (s.setHalf xy k v).audioOut = s.audioOut := by cases xy <;> cases k <;> rfl
@[simp] theorem State.setHalf_framesPresented (s : State) (xy : Xy) (k : Half) (v : Byte) : (s.setHalf xy k v).framesPresented = s.framesPresented := by cases xy <;> cases k <;> rfl
@[simp] theorem State.setHalf_hostReply (s : State) (xy : Xy) (k : Half) (v : Byte) : (s.setHalf xy k v).hostReply = s.hostReply := by cases xy <;> cases k <;> rfl
@[simp] theorem State.setHalf_errorStream (s : State) (xy : Xy) (k : Half) (v : Byte) : (s.setHalf xy k v).errorStream = s.errorStream := by cases xy <;> cases k <;> rfl
@[simp] theorem State.setHalf_shutDown (s : State) (xy : Xy) (k : Half) (v : Byte) : (s.setHalf xy k v).shutDown = s.shutDown := by cases xy <;> cases k <;> rfl
@[simp] theorem State.setHalf_freeDraws (s : State) (xy : Xy) (k : Half) (v : Byte) : (s.setHalf xy k v).freeDraws = s.freeDraws := by cases xy <;> cases k <;> rfl
@[simp] theorem State.setHalf_read8 (s : State) (xy : Xy) (k : Half) (v : Byte) (x : Word) : (s.setHalf xy k v).read8 x = s.read8 x := by cases xy <;> cases k <;> rfl

/-! `setReg8Xy` -/
@[simp] theorem State.setReg8Xy_cursor (s : State) (xy : Xy) (r : Reg8) (v : Byte) : (s.setReg8Xy xy r v).cursor = s.cursor := by cases xy <;> cases r <;> rfl
@[simp] theorem State.setReg8Xy_mem (s : State) (xy : Xy) (r : Reg8) (v : Byte) : (s.setReg8Xy xy r v).mem = s.mem := by cases xy <;> cases r <;> rfl
@[simp] theorem State.setReg8Xy_clock (s : State) (xy : Xy) (r : Reg8) (v : Byte) : (s.setReg8Xy xy r v).clock = s.clock := by cases xy <;> cases r <;> rfl
@[simp] theorem State.setReg8Xy_frameAcc (s : State) (xy : Xy) (r : Reg8) (v : Byte) : (s.setReg8Xy xy r v).frameAcc = s.frameAcc := by cases xy <;> cases r <;> rfl
@[simp] theorem State.setReg8Xy_keys (s : State) (xy : Xy) (r : Reg8) (v : Byte) : (s.setReg8Xy xy r v).keys = s.keys := by cases xy <;> cases r <;> rfl
@[simp] theorem State.setReg8Xy_ula (s : State) (xy : Xy) (r : Reg8) (v : Byte) : (s.setReg8Xy xy r v).ula = s.ula := by cases xy <;> cases r <;> rfl
@[simp] theorem State.setReg8Xy_beeper (s : State) (xy : Xy) (r : Reg8) (v : Byte) : (s.setReg8Xy xy r v).beeper = s.beeper := by cases xy <;> cases r <;> rfl
@[simp] theorem State.setReg8Xy_tape (s : State) (xy : Xy) (r : Reg8) (v : Byte) : (s.setReg8Xy xy r v).tape = s.tape := by cases xy <;> cases r <;> rfl
@[simp] theorem State.setReg8Xy_recorder (s : State) (xy : Xy) (r : Reg8) (v : Byte) : (s.setReg8Xy xy r v).recorder = s.recorder := by cases xy <;> cases r <;> rfl
@[simp] theorem State.setReg8Xy_fault (s : State) (xy : Xy) (r : Reg8) (v : Byte) : (s.setReg8Xy xy r v).fault = s.fault := by cases xy <;> cases r <;> rfl
@[simp] theorem State.setReg8Xy_config (s : State) (xy : Xy) (r : Reg8) (v : Byte) : (s.setReg8Xy xy r v).config = s.config := by cases xy <;> cases r <;> rfl
@[simp] theorem State.setReg8Xy_disk (s : State) (xy : Xy) (r : Reg8) (v : Byte) : (s.setReg8Xy xy r v).disk = s.disk := by cases xy <;> cases r <;> rfl
@[simp] theorem State.setReg8Xy_schedule (s : State) (xy : Xy) (r : Reg8) (v : Byte) : (s.setReg8Xy xy r v).schedule = s.schedule := by cases xy <;> cases r <;> rfl
@[simp] theorem State.setReg8Xy_audioOpen (s : State) (xy : Xy) (r : Reg8) (v : Byte) : (s.setReg8Xy xy r v).audioOpen = s.audioOpen := by cases xy <;> cases r <;> rfl
@[simp] theorem State.setReg8Xy_audioOut (s : State) (xy : Xy) (r : Reg8) (v : Byte) : (s.setReg8Xy xy r v).audioOut = s.audioOut := by cases xy <;> cases r <;> rfl
@[simp] theorem State.setReg8Xy_framesPresented (s : State) (xy : Xy) (r : Reg8) (v : Byte) : (s.setReg8Xy xy r v).framesPresented = s.framesPresented := by cases xy <;> cases r <;> rfl
@[simp] theorem State.setReg8Xy_hostReply (s : State) (xy : Xy) (r : Reg8) (v : Byte) : (s.setReg8Xy xy r v).hostReply = s.hostReply := by cases xy <;> cases r <;> rfl
@[simp] theorem State.setReg8Xy_errorStream (s : State) (xy : Xy) (r : Reg8) (v : Byte) : (s.setReg8Xy xy r v).errorStream = s.errorStream := by cases xy <;> cases r <;> rfl
@[simp] theorem State.setReg8Xy_shutDown (s : State) (xy : Xy) (r : Reg8) (v : Byte) : (s.setReg8Xy xy r v).shutDown = s.shutDown := by cases xy <;> cases r <;> rfl
@[simp] theorem State.setReg8Xy_freeDraws (s : State) (xy : Xy) (r : Reg8) (v : Byte) : (s.setReg8Xy xy r v).freeDraws = s.freeDraws := by cases xy <;> cases r <;> rfl
@[simp] theorem State.setReg8Xy_read8 (s : State) (xy : Xy) (r : Reg8) (v : Byte) (x : Word) : (s.setReg8Xy xy r v).read8 x = s.read8 x := by cases xy <;> cases r <;> rfl

/-! `write8` -/
@[simp] theorem State.write8_cpu (s : State) (a : Word) (v : Byte) : (s.write8 a v).cpu = s.cpu := by unfold State.write8; split <;> rfl
@[simp] theorem State.write8_cursor (s : State) (a : Word) (v : Byte) : (s.write8 a v).cursor = s.cursor := by unfold State.write8; split <;> rfl
@[simp] theorem State.write8_clock (s : State) (a : Word) (v : Byte) : (s.write8 a v).clock = s.clock := by unfold State.write8; split <;> rfl
@[simp] theorem State.write8_frameAcc (s : State) (a : Word) (v : Byte) : (s.write8 a v).frameAcc = s.frameAcc := by unfold State.write8; split <;> rfl
@[simp] theorem State.write8_keys (s : State) (a : Word) (v : Byte) : (s.write8 a v).keys = s.keys := by unfold State.write8; split <;> rfl
@[simp] theorem State.write8_ula (s : State) (a : Word) (v : Byte) : (s.write8 a v).ula = s.ula := by unfold State.write8; split <;> rfl
@[simp] theorem State.write8_beeper (s : State) (a : Word) (v : Byte) : (s.write8 a v).beeper = s.beeper := by unfold State.write8; split <;> rfl
@[simp] theorem State.write8_tape (s : State) (a : Word) (v : Byte) : (s.write8 a v).tape = s.tape := by unfold State.write8; split <;> rfl
@[simp] theorem State.write8_recorder (s : State) (a : Word) (v : Byte) : (s.write8 a v).recorder = s.recorder := by unfold State.write8; split <;> rfl
@[simp] theorem State.write8_fault (s : State) (a : Word) (v : Byte) : (s.write8 a v).fault = s.fault := by unfold State.write8; split <;> rfl
@[simp] theorem State.write8_config (s : State) (a : Word) (v : Byte) : (s.write8 a v).config = s.config := by unfold State.write8; split <;> rfl
@[simp] theorem State.write8_disk (s : State) (a : Word) (v : Byte) : (s.write8 a v).disk = s.disk := by unfold State.write8; split <;> rfl
@[simp] theorem State.write8_schedule (s : State) (a : Word) (v : Byte) : (s.write8 a v).schedule = s.schedule := by unfold State.write8; split <;> rfl
@[simp] theorem State.write8_audioOpen (s : State) (a : Word) (v : Byte) : (s.write8 a v).audioOpen = s.audioOpen := by unfold State.write8; split <;> rfl
@[simp] theorem State.write8_audioOut (s : State) (a : Word) (v : Byte) : (s.write8 a v).audioOut = s.audioOut := by unfold State.write8; split <;> rfl
@[simp] theorem State.write8_framesPresented (s : State) (a : Word) (v : Byte) : (s.write8 a v).framesPresented = s.framesPresented := by unfold State.write8; split <;> rfl
@[simp] theorem State.write8_hostReply (s : State) (a : Word) (v : Byte) : (s.write8 a v).hostReply = s.hostReply := by unfold State.write8; split <;> rfl
@[simp] theorem State.write8_errorStream (s : State) (a : Word) (v : Byte) : (s.write8 a v).errorStream = s.errorStream := by unfold State.write8; split <;> rfl
@[simp] theorem State.write8_shutDown (s : State) (a : Word) (v : Byte) : (s.write8 a v).shutDown = s.shutDown := by unfold State.write8; split <;> rfl
@[simp] theorem State.write8_freeDraws (s : State) (a : Word) (v : Byte) : (s.write8 a v).freeDraws = s.freeDraws := by unfold State.write8; split <;> rfl

/-! `write16` -/
@[simp] theorem State.write16_cpu (s : State) (a : Word) (v : Word) : (s.write16 a v).cpu = s.cpu := by simp [State.write16]
@[simp] theorem State.write16_cursor (s : State) (a : Word) (v : Word) : (s.write16 a v).cursor = s.cursor := by simp [State.write16]
@[simp] theorem State.write16_clock (s : State) (a : Word) (v : Word) : (s.write16 a v).clock = s.clock := by simp [State.write16]
@[simp] theorem State.write16_frameAcc (s : State) (a : Word) (v : Word) : (s.write16 a v).frameAcc = s.frameAcc := by simp [State.write16]
@[simp] theorem State.write16_keys (s : State) (a : Word) (v : Word) : (s.write16 a v).keys = s.keys := by simp [State.write16]
@[simp] theorem State.write16_ula (s : State) (a : Word) (v : Word) : (s.write16 a v).ula = s.ula := by simp [State.write16]
@[simp] theorem State.write16_beeper (s : State) (a : Word) (v : Word) : (s.write16 a v).beeper = s.beeper := by simp [State.write16]
@[simp] theorem State.write16_tape (s : State) (a : Word) (v : Word) : (s.write16 a v).tape = s.tape := by simp [State.write16]
@[simp] theorem State.write16_recorder (s : State) (a : Word) (v : Word) : (s.write16 a v).recorder = s.recorder := by simp [State.write16]
@[simp] theorem State.write16_fault (s : State) (a : Word) (v : Word) : (s.write16 a v).fault = s.fault := by simp [State.write16]
@[simp] theorem State.write16_config (s : State) (a : Word) (v : Word) : (s.write16 a v).config = s.config := by simp [State.write16]
@[simp] theorem State.write16_disk (s : State) (a : Word) (v : Word) : (s.write16 a v).disk = s.disk := by simp [State.write16]
@[simp] theorem State.write16_schedule (s : State) (a : Word) (v : Word) : (s.write16 a v).schedule = s.schedule := by simp [State.write16]
@[simp] theorem State.write16_audioOpen (s : State) (a : Word) (v : Word) : (s.write16 a v).audioOpen = s.audioOpen := by simp [State.write16]
@[simp] theorem State.write16_audioOut (s : State) (a : Word) (v : Word) : (s.write16 a v).audioOut = s.audioOut := by simp [State.write16]
@[simp] theorem State.write16_framesPresented (s : State) (a : Word) (v : Word) : (s.write16 a v).framesPresented = s.framesPresented := by simp [State.write16]
@[simp] theorem State.write16_hostReply (s : State) (a : Word) (v : Word) : (s.write16 a v).hostReply = s.hostReply := by simp [State.write16]
@[simp] theorem State.write16_errorStream (s : State) (a : Word) (v : Word) : (s.write16 a v).errorStream = s.errorStream := by simp [State.write16]
@[simp] theorem State.write16_shutDown (s : State) (a : Word) (v : Word) : (s.write16 a v).shutDown = s.shutDown := by simp [State.write16]
@[simp] theorem State.write16_freeDraws (s : State) (a : Word) (v : Word) : (s.write16 a v).freeDraws = s.freeDraws := by simp [State.write16]

/-! `push16` -/
@[simp] theorem State.push16_cursor (s : State) (v : Word) : (s.push16 v).cursor = s.cursor := by simp [State.push16]
@[simp] theorem State.push16_clock (s : State) (v : Word) : (s.push16 v).clock = s.clock := by simp [State.push16]
@[simp] theorem State.push16_frameAcc (s : State) (v : Word) : (s.push16 v).frameAcc = s.frameAcc := by simp [State.push16]
@[simp] theorem State.push16_keys (s : State) (v : Word) : (s.push16 v).keys = s.keys := by simp [State.push16]
@[simp] theorem State.push16_ula (s : State) (v : Word) : (s.push16 v).ula = s.ula := by simp [State.push16]
@[simp] theorem State.push16_beeper (s : State) (v : Word) : (s.push16 v).beeper = s.beeper := by simp [State.push16]
@[simp] theorem State.push16_tape (s : State) (v : Word) : (s.push16 v).tape = s.tape := by simp [State.push16]
@[simp] theorem State.push16_recorder (s : State) (v : Word) : (s.push16 v).recorder = s.recorder := by simp [State.push16]
@[simp] theorem State.push16_fault (s : State) (v : Word) : (s.push16 v).fault = s.fault := by simp [State.push16]
@[simp] theorem State.push16_config (s : State) (v : Word) : (s.push16 v).config = s.config := by simp [State.push16]
@[simp] theorem State.push16_disk (s : State) (v : Word) : (s.push16 v).disk = s.disk := by simp [State.push16]
@[simp] theorem State.push16_schedule (s : State) (v : Word) : (s.push16 v).schedule = s.schedule := by simp [State.push16]
@[simp] theorem State.push16_audioOpen (s : State) (v : Word) : (s.push16 v).audioOpen = s.audioOpen := by simp [State.push16]
@[simp] theorem State.push16_audioOut (s : State) (v : Word) : (s.push16 v).audioOut = s.audioOut := by simp [State.push16]
@[simp] theorem State.push16_framesPresented (s : State) (v : Word) : (s.push16 v).framesPresented = s.framesPresented := by simp [State.push16]
@[simp] theorem State.push16_hostReply (s : State) (v : Word) : (s.push16 v).hostReply = s.hostReply := by simp [State.push16]
@[simp] theorem State.push16_errorStream (s : State) (v : Word) : (s.push16 v).errorStream = s.errorStream := by simp [State.push16]
@[simp] theorem State.push16_shutDown (s : State) (v : Word) : (s.push16 v).shutDown = s.shutDown := by simp [State.push16]
@[simp] theorem State.push16_freeDraws (s : State) (v : Word) : (s.push16 v).freeDraws = s.freeDraws := by simp [State.push16]
@[simp] theorem State.push16_cpu (s : State) (v : Word) :
    (s.push16 v).cpu = { s.cpu with sp := s.cpu.sp - 1#16 - 1#16 } := by simp [State.push16]

/-! `pop16` -/
@[simp] theorem State.pop16_cpu (s : State) : s.pop16.2.cpu = { s.cpu with sp := s.cpu.sp + 1#16 + 1#16 } := rfl
@[simp] theorem State.pop16_cursor (s : State) : s.pop16.2.cursor = s.cursor := rfl
@[simp] theorem State.pop16_mem (s : State) : s.pop16.2.mem = s.mem := rfl
@[simp] theorem State.pop16_clock (s : State) : s.pop16.2.clock = s.clock := rfl
@[simp] theorem State.pop16_frameAcc (s : State) : s.pop16.2.frameAcc = s.frameAcc := rfl
@[simp] theorem State.pop16_keys (s : State) : s.pop16.2.keys = s.keys := rfl
@[simp] theorem State.pop16_ula (s : State) : s.pop16.2.ula = s.ula := rfl
@[simp] theorem State.pop16_beeper (s : State) : s.pop16.2.beeper = s.beeper := rfl
@[simp] theorem State.pop16_tape (s : State) : s.pop16.2.tape = s.tape := rfl
@[simp] theorem State.pop16_recorder (s : State) : s.pop16.2.recorder = s.recorder := rfl
@[simp] theorem State.pop16_fault (s : State) : s.pop16.2.fault = s.fault := rfl
@[simp] theorem State.pop16_config (s : State) : s.pop16.2.config = s.config := rfl
@[simp] theorem State.pop16_disk (s : State) : s.pop16.2.disk = s.disk := rfl
@[simp] theorem State.pop16_schedule (s : State) : s.pop16.2.schedule = s.schedule := rfl
@[simp] theorem State.pop16_audioOpen (s : State) : s.pop16.2.audioOpen = s.audioOpen := rfl
@[simp] theorem State.pop16_audioOut (s : State) : s.pop16.2.audioOut = s.audioOut := rfl
@[simp] theorem State.pop16_framesPresented (s : State) : s.pop16.2.framesPresented = s.framesPresented := rfl
@[simp] theorem State.pop16_hostReply (s : State) : s.pop16.2.hostReply = s.hostReply := rfl
@[simp] theorem State.pop16_errorStream (s : State) : s.pop16.2.errorStream = s.errorStream := rfl
@[simp] theorem State.pop16_shutDown (s : State) : s.pop16.2.shutDown = s.shutDown := rfl
@[simp] theorem State.pop16_freeDraws (s : State) : s.pop16.2.freeDraws = s.freeDraws := rfl
@[simp] theorem State.pop16_read8 (s : State) (x : Word) : s.pop16.2.read8 x = s.read8 x := rfl

/-- The word `pop16` takes: low byte at SP, high byte above it (R76). -/
@[simp] theorem State.pop16_value (s : State) : s.pop16.1 = s.read16 s.cpu.sp := rfl

end Sys2Proof.Machine
end

