-- ==== Sys2Proof/Laws/Memory.lean ====
section
/-! SUPPORT. Memory: reading after writing, and that every memory operation keeps the canonical form. -/

namespace Sys2Proof.Machine

/-! ## The canonical form -/

theorem Memory.wfFrom_mono {lo lo' : Nat} (h : lo' ≤ lo) : ∀ {m : Memory}, Memory.wfFrom lo m → Memory.wfFrom lo' m
  | [], _ => rfl
  | (k, v) :: rest, hm => by
    simp only [Memory.wfFrom, Bool.and_eq_true, decide_eq_true_eq] at hm ⊢
    exact ⟨⟨⟨Nat.le_trans h hm.1.1.1, hm.1.1.2⟩, hm.1.2⟩, hm.2⟩

/-- An address below every listed one reads as an unlisted one. -/
theorem Memory.get_of_lt {lo a : Nat} (h : a < lo) : ∀ {m : Memory}, Memory.wfFrom lo m → m.get a = Memory.unlisted
  | [], _ => rfl
  | (k, v) :: rest, hm => by
    simp only [Memory.wfFrom, Bool.and_eq_true, decide_eq_true_eq] at hm
    have hk : k ≠ a := by omega
    simp only [Memory.get, hk, if_false]
    exact Memory.get_of_lt (by omega) hm.2

theorem Memory.put_wfFrom {lo a : Nat} (v : Byte) (hlo : lo ≤ a) (ha : a < Config.memSize) :
    ∀ {m : Memory}, Memory.wfFrom lo m → Memory.wfFrom lo (m.put a v)
  | [], _ => by
    by_cases hv : v = Memory.unlisted <;> simp [Memory.put, Memory.wfFrom, hv, hlo, ha]
  | (k, w) :: rest, hm => by
    have hm' := hm
    simp only [Memory.wfFrom, Bool.and_eq_true, decide_eq_true_eq] at hm
    obtain ⟨⟨⟨h1, h2⟩, h3⟩, h4⟩ := hm
    unfold Memory.put
    by_cases hak : a < k
    · by_cases hv : v = Memory.unlisted
      · simp only [hak, hv, if_true]; exact hm'
      · simp only [hak, hv, if_true, if_false]
        simp [Memory.wfFrom, hlo, ha, hv, h2, h3, h4]
        omega
    · by_cases hke : a = k
      · by_cases hv : v = Memory.unlisted
        · simp only [hke, hv, if_true, Nat.lt_irrefl, if_false]
          exact Memory.wfFrom_mono (by omega) h4
        · subst hke
          simp only [Nat.lt_irrefl, hv, if_true, if_false]
          simp [Memory.wfFrom, hlo, ha, hv, h4]
      · simp only [hak, hke, if_false]
        simp only [Memory.wfFrom, Bool.and_eq_true, decide_eq_true_eq]
        exact ⟨⟨⟨h1, h2⟩, h3⟩, Memory.put_wfFrom v (by omega) ha h4⟩

/-- A store keeps the canonical form. -/
theorem Memory.put_wf {m : Memory} {a : Nat} (v : Byte) (ha : a < Config.memSize) (hm : m.wf) : (m.put a v).wf :=
  Memory.put_wfFrom v (Nat.zero_le _) ha hm

theorem word_lt_memSize (a : Word) : a.toNat < Config.memSize := a.isLt

theorem Memory.putBytes_wf : ∀ (bs : List Byte) {m : Memory} (a : Word), m.wf → (m.putBytes a bs).wf
  | [], _, _, hm => hm
  | v :: rest, _, a, hm => Memory.putBytes_wf rest (a + 1#16) (Memory.put_wf v (word_lt_memSize a) hm)

/-! ## Reading after writing -/

theorem Memory.get_put_ne {a x : Nat} (v : Byte) (h : x ≠ a) : ∀ (m : Memory), (m.put a v).get x = m.get x
  | [] => by
    by_cases hv : v = Memory.unlisted <;> simp [Memory.put, Memory.get, hv, Ne.symm h]
  | (k, w) :: rest => by
    unfold Memory.put
    by_cases hak : a < k
    · by_cases hv : v = Memory.unlisted <;> simp [Memory.get, hak, hv, Ne.symm h]
    · by_cases hke : a = k
      · subst hke
        by_cases hv : v = Memory.unlisted <;> simp [Memory.get, hv, Ne.symm h]
      · simp only [hak, hke, if_false, Memory.get]
        split
        · rfl
        · exact Memory.get_put_ne v h rest

theorem Memory.get_put_eq_of_wfFrom (a : Nat) (v : Byte) :
    ∀ {lo : Nat} {m : Memory}, Memory.wfFrom lo m → (m.put a v).get a = v
  | _, [], _ => by
    by_cases hv : v = Memory.unlisted <;> simp [Memory.put, Memory.get, hv]
  | _, (k, w) :: rest, hm => by
    simp only [Memory.wfFrom, Bool.and_eq_true, decide_eq_true_eq] at hm
    unfold Memory.put
    by_cases hak : a < k
    · by_cases hv : v = Memory.unlisted
      · have hk : k ≠ a := by omega
        simp only [hak, hv, if_true, Memory.get, hk, if_false]
        exact Memory.get_of_lt (by omega) hm.2
      · simp [Memory.get, hak, hv]
    · by_cases hke : a = k
      · subst hke
        by_cases hv : v = Memory.unlisted
        · simp only [Nat.lt_irrefl, hv, if_true, if_false]
          exact Memory.get_of_lt (by omega) hm.2
        · simp [Memory.get, hv]
      · have hk : k ≠ a := fun h => hke h.symm
        simp only [hak, hke, if_false, Memory.get, hk]
        exact Memory.get_put_eq_of_wfFrom a v hm.2

/-- A read after a write in a memory of canonical form. -/
theorem Memory.get_put {m : Memory} (hm : m.wf) (a x : Nat) (v : Byte) :
    (m.put a v).get x = if x = a then v else m.get x := by
  by_cases h : x = a
  · subst h; simp [Memory.get_put_eq_of_wfFrom x v hm]
  · simp [h, Memory.get_put_ne v h]

/-- Storing the value an address already has changes nothing in a memory of canonical form. -/
theorem Memory.put_get_self_from {a : Nat} : ∀ {lo : Nat} {m : Memory}, Memory.wfFrom lo m → m.put a (m.get a) = m
  | _, [], _ => by simp [Memory.put, Memory.get]
  | _, (k, w) :: rest, hm => by
    simp only [Memory.wfFrom, Bool.and_eq_true, decide_eq_true_eq] at hm
    obtain ⟨⟨⟨h1, h2⟩, h3⟩, h4⟩ := hm
    by_cases hak : a < k
    · have hk : k ≠ a := by omega
      have hu : Memory.get rest a = Memory.unlisted := Memory.get_of_lt (by omega) h4
      simp [Memory.put, Memory.get, hak, hk, hu]
    · by_cases hke : a = k
      · subst hke
        have hw : w ≠ Memory.unlisted := by simpa using h3
        simp [Memory.put, Memory.get, hw]
      · have hk : k ≠ a := fun h => hke h.symm
        simp [Memory.put, Memory.get, hak, hke, hk, Memory.put_get_self_from h4]

/-! ## The machine's accesses (rules R61 .. R63) -/

theorem word_toNat_inj {a b : Word} : a.toNat = b.toNat ↔ a = b := ⟨BitVec.eq_of_toNat_eq, fun h => h ▸ rfl⟩

/-- A byte write, in a memory of canonical form: ROM keeps its byte, RAM takes the value, every other byte stays. -/
theorem State.read8_write8 {s : State} (hm : s.mem.wf) (a x : Word) (v : Byte) :
    (s.write8 a v).read8 x = if x = a ∧ ¬ a.toNat < Config.romSize then v else s.read8 x := by
  unfold State.write8 State.read8
  by_cases hr : a.toNat < Config.romSize
  · simp [hr]
  · simp only [hr, if_false, Memory.get_put hm, word_toNat_inj]
    by_cases hx : x = a <;> simp [hx]

/-- A byte write leaves every other byte, whatever the memory. -/
theorem State.read8_write8_ne {s : State} {a x : Word} (v : Byte) (h : x ≠ a) :
    (s.write8 a v).read8 x = s.read8 x := by
  unfold State.write8 State.read8
  split
  · rfl
  · exact Memory.get_put_ne v (fun hx => h (BitVec.eq_of_toNat_eq hx)) _

/-- A write below 0x4000 is discarded (R62). -/
theorem State.write8_rom {s : State} {a : Word} (v : Byte) (h : a.toNat < Config.romSize) : s.write8 a v = s := by
  simp [State.write8, h]

theorem State.write8_wf {s : State} (a : Word) (v : Byte) (hm : s.mem.wf) : (s.write8 a v).mem.wf := by
  unfold State.write8
  split
  · exact hm
  · exact Memory.put_wf v (word_lt_memSize a) hm

theorem State.write16_wf {s : State} (a v : Word) (hm : s.mem.wf) : (s.write16 a v).mem.wf :=
  State.write8_wf _ _ (State.write8_wf _ _ hm)

theorem State.push16_wf {s : State} (v : Word) (hm : s.mem.wf) : (s.push16 v).mem.wf := by
  have h1 : ((s.setSp (s.cpu.sp - 1#16)).write8 (s.cpu.sp - 1#16) (hiByte v)).mem.wf := State.write8_wf _ _ hm
  exact State.write8_wf (s := State.setSp _ _) _ _ h1

/-- ROM bytes stay through a byte write (R62). -/
theorem State.write8_get_rom {s : State} (a : Word) (v : Byte) {x : Nat} (hx : x < Config.romSize) :
    (s.write8 a v).mem.get x = s.mem.get x := by
  unfold State.write8
  split
  · rfl
  · exact Memory.get_put_ne v (by omega) _

theorem State.write16_get_rom {s : State} (a v : Word) {x : Nat} (hx : x < Config.romSize) :
    (s.write16 a v).mem.get x = s.mem.get x := by
  simp [State.write16, State.write8_get_rom _ _ hx]

theorem State.push16_get_rom {s : State} (v : Word) {x : Nat} (hx : x < Config.romSize) :
    (s.push16 v).mem.get x = s.mem.get x := by
  simp [State.push16, State.write8_get_rom _ _ hx]

/-- A word write leaves every byte but its two (R63). -/
theorem State.read8_write16_ne {s : State} {a x : Word} (v : Word) (h : x ≠ a) (h1 : x ≠ a + 1#16) :
    (s.write16 a v).read8 x = s.read8 x := by
  simp [State.write16, State.read8_write8_ne _ h1, State.read8_write8_ne _ h]

/-- A push leaves every byte but the two below SP (R76). -/
theorem State.read8_push16_ne {s : State} {x : Word} (v : Word) (h : x ≠ s.cpu.sp - 1#16)
    (h1 : x ≠ s.cpu.sp - 1#16 - 1#16) : (s.push16 v).read8 x = s.read8 x := by
  simp [State.push16, State.read8_write8_ne _ h, State.read8_write8_ne _ h1]

end Sys2Proof.Machine
end

