-- ==== Sys2Proof/Laws/Accesses.lean ====
section
/-! SUPPORT. Accesses: all that a byte write, a word write, a push, a pop, a port write and a fetch do to the state. -/

namespace Sys2Proof.Machine

/-! ## Byte and word writes (rules R61 .. R63) -/

theorem State.write8_eq (s : State) (a : Word) (v : Byte) : s.write8 a v = { s with mem := (s.write8 a v).mem } := by
  unfold State.write8
  split <;> rfl

theorem State.write16_eq (s : State) (a v : Word) : s.write16 a v = { s with mem := (s.write16 a v).mem } := by
  unfold State.write16
  rw [State.write8_eq, State.write8_eq s]

theorem storedByte_write8 {s : State} (hm : s.mem.wf = true) (a : Word) (v : Byte) :
    StoredByte s (s.write8 a v) a v := by
  intro x
  rw [State.read8_write8 hm]
  simp

theorem storedWord_write16 {s : State} (hm : s.mem.wf = true) (a v : Word) : StoredWord s (s.write16 a v) a v := by
  intro x
  have hne : a + 1#16 ≠ a := by bv_omega
  unfold State.write16
  rw [State.read8_write8 (State.write8_wf a (loByte v) hm), State.read8_write8 hm]
  by_cases h : x = a + 1#16
  · subst h; simp [hne]
  · simp [h]

/-! ## The stack (rule R76) -/

theorem State.push16_eq (s : State) (v : Word) :
    s.push16 v = { s with cpu := { s.cpu with sp := s.cpu.sp - 2#16 }, mem := (s.push16 v).mem } := by
  have h : s.cpu.sp - 1#16 - 1#16 = s.cpu.sp - 2#16 := by bv_omega
  unfold State.push16
  simp only [State.write8_cpu, State.setSp]
  rw [State.write8_eq]
  simp only
  rw [State.write8_eq]
  simp [h]

theorem State.push16_cpu_eq (s : State) (v : Word) :
    (s.push16 v).cpu = { s.cpu with sp := s.cpu.sp - 2#16 } := by rw [State.push16_eq]

theorem storedWord_push16 {s : State} (hm : s.mem.wf = true) (v : Word) :
    StoredWord s (s.push16 v) (s.cpu.sp - 2#16) v := by
  intro x
  have h1 := State.write8_wf (s := s.setSp (s.cpu.sp - 1#16)) (s.cpu.sp - 1#16) (hiByte v) hm
  have e1 : s.cpu.sp - 1#16 - 1#16 = s.cpu.sp - 2#16 := by bv_omega
  have e2 : s.cpu.sp - 2#16 + 1#16 = s.cpu.sp - 1#16 := by bv_omega
  have hcpu : ∀ (u : State) (c : Cpu), ({ u with cpu := c } : State).read8 x = u.read8 x := fun _ _ => rfl
  unfold State.push16
  simp only [State.write8_cpu, State.setSp]
  rw [State.read8_write8 (by exact h1), hcpu, State.read8_write8 (by exact hm), hcpu]
  simp only [e1, e2, Nat.not_lt]

theorem State.pop16_eq (s : State) :
    s.pop16 = (mkWord (s.read8 (s.cpu.sp + 1#16)) (s.read8 s.cpu.sp),
      { s with cpu := { s.cpu with sp := s.cpu.sp + 2#16 } }) := by
  have h : s.cpu.sp + 1#16 + 1#16 = s.cpu.sp + 2#16 := by bv_omega
  simp only [State.pop16, State.setSp, h]
  rfl

/-! ## Port writes (rules R401, R406, R407) -/

theorem State.ioWrite_eq (s : State) (port : Word) (v : Byte) :
    s.ioWrite port v = { s with ula := (s.ioWrite port v).ula } := by
  unfold State.ioWrite State.ulaWrite
  split <;> rfl

@[simp] theorem State.ioWrite_cpu (s : State) (port : Word) (v : Byte) : (s.ioWrite port v).cpu = s.cpu := by
  rw [State.ioWrite_eq]

@[simp] theorem State.ioWrite_cursor (s : State) (port : Word) (v : Byte) : (s.ioWrite port v).cursor = s.cursor := by
  rw [State.ioWrite_eq]

@[simp] theorem State.ioWrite_mem (s : State) (port : Word) (v : Byte) : (s.ioWrite port v).mem = s.mem := by
  rw [State.ioWrite_eq]

theorem portWrote_ioWrite (s t : State) (port : Word) (v : Byte) (k : Nat) (hu : t.ula = s.ula)
    (hb : t.cursor.tBase = s.cursor.tBase) (ht : t.cursor.t = s.cursor.t + k) :
    PortWrote s (t.ioWrite port v) port v k := by
  have hp : port.getLsbD 0 = decide (port.toNat % 2 = 1) := by simp [BitVec.getLsbD]
  unfold PortWrote State.ioWrite State.ulaWrite Ula.enqueue
  rw [hp]
  by_cases h : port.toNat % 2 = 1
  · simp [h, hu]
  · simp [h, hu, hb, ht, Config.ulaQueueCap, Nat.add_assoc]

/-! ## Fetching (rules R25, R29, R36) -/

theorem took_fetched (s : State) (n k t : Nat) : Took s (s.fetched n k t) n k t := ⟨rfl, rfl, rfl⟩

theorem took_fetchedIdx (s : State) (xy : Xy) (n k t : Nat) : Took s (s.fetchedIdx xy n k t) n k t := ⟨rfl, rfl, rfl⟩

theorem onlyPcR_fetched (s : State) (n k t : Nat) : OnlyPcR s.cpu (s.fetched n k t).cpu := rfl

theorem onlyPcR_fetchedIdx (s : State) (xy : Xy) (n k t : Nat) : OnlyPcR s.cpu (s.fetchedIdx xy n k t).cpu := rfl

/-- A state that differs from `s` in PC, R and the cursor alone, as after a fetch. -/
def AtFetch (s u : State) : Prop := u = { s with cpu := { s.cpu with pc := u.cpu.pc, r := u.cpu.r }, cursor := u.cursor }

theorem atFetch_fetched (s : State) (n k t : Nat) : AtFetch s (s.fetched n k t) := rfl

theorem atFetch_fetchedIdx (s : State) (xy : Xy) (n k t : Nat) : AtFetch s (s.fetchedIdx xy n k t) := rfl

theorem AtFetch.mem {s u : State} (h : AtFetch s u) : u.mem = s.mem := by rw [h]

theorem AtFetch.read8 {s u : State} (h : AtFetch s u) (x : Word) : u.read8 x = s.read8 x := by rw [h]; rfl

theorem AtFetch.sp {s u : State} (h : AtFetch s u) : u.cpu.sp = s.cpu.sp := by rw [h]

theorem AtFetch.ula {s u : State} (h : AtFetch s u) : u.ula = s.ula := by rw [h]

/-! ## The shapes of an instruction's effect, from the operation it ends in -/

theorem StoresByte.of_write8 {i : Instr} {s u : State} {a : Word} {v : Byte} {n k tt : Nat} (hm : s.mem.wf = true)
    (h : exec i s = .next (u.write8 a v)) (hu : AtFetch s u) (ht : Took s u n k tt) : StoresByte i s a v n k tt := by
  refine ⟨_, h, ?_, ?_, ?_, ?_⟩
  · simpa [Took] using ht
  · simp only [OnlyPcR, State.write8_cpu]; rw [hu]
  · intro x; rw [storedByte_write8 (by rw [hu.mem]; exact hm) a v x, hu.read8]
  · simp only [SameOutside]; rw [State.write8_eq, hu]

theorem StoresWord.of_write16 {i : Instr} {s u : State} {c : Cpu} {a v : Word} {n k tt : Nat} (hm : s.mem.wf = true)
    (h : exec i s = .next (u.write16 a v)) (hu : AtFetch s u) (hc : u.cpu = { c with pc := u.cpu.pc, r := u.cpu.r })
    (ht : Took s u n k tt) : StoresWord i s c a v n k tt := by
  refine ⟨_, h, ?_, ?_, ?_, ?_⟩
  · simpa [Took] using ht
  · simpa using hc
  · intro x; rw [storedWord_write16 (by rw [hu.mem]; exact hm) a v x]; simp only [hu.read8]
  · simp only [SameOutside]; rw [State.write16_eq, hu]

theorem StoresWord.of_push16 {i : Instr} {s u : State} {v : Word} {n k tt : Nat} (hm : s.mem.wf = true)
    (h : exec i s = .next (u.push16 v)) (hu : AtFetch s u) (ht : Took s u n k tt) :
    StoresWord i s { s.cpu with sp := s.cpu.sp - 2#16 } (s.cpu.sp - 2#16) v n k tt := by
  refine ⟨_, h, ?_, ?_, ?_, ?_⟩
  · simpa only [Took, State.push16_cpu_eq, State.push16_cursor] using ht
  · rw [State.push16_cpu_eq, hu]
  · intro x; rw [← hu.sp, storedWord_push16 (by rw [hu.mem]; exact hm) v x]; simp only [hu.read8]
  · simp only [SameOutside]; rw [State.push16_eq, hu]

end Sys2Proof.Machine
end

