-- ==== Sys2Proof/Laws/Exec.lean ====
section
/-! SUPPORT. Exec: what the shared operations behind the instructions do, one lemma each, and the instructions of one
shape as one equation over them. -/

namespace Sys2Proof.Machine

/-! ## The index prefix in front of what it does not alter (rules R103, R363) -/

theorem runAfterXy_eq (i : Instr) (s : State) : runAfterXy i s = exec i s := by cases i <;> rfl

theorem exec_xpMain (xy : Xy) (i : Instr) (s : State) : exec (.xpMain xy i) s = exec i (s.fetchedXy xy) :=
  runAfterXy_eq i _

theorem exec_xpEd (xy : Xy) (i : Instr) (s : State) : exec (.xpEd xy i) s = exec i (s.fetchedXy xy) :=
  runAfterXy_eq i _

theorem exec_xpXp (xy : Xy) (i : Instr) (s : State) : exec (.xpXp xy i) s = exec i (s.fetchedXy xy) :=
  runAfterXy_eq i _

/-! ## Conditions (rules R94, R290) -/

theorem condHolds_iff (cc : Cond) (f : Byte) : condHolds cc f = true ↔ condMeans cc f := by
  cases cc <;> simp [condHolds, condMeans]

/-! ## Registers (rules R20, R92) -/

theorem Cpu.reg8_setReg8 (c : Cpu) (r q : Reg8) (v : Byte) :
    (c.setReg8 r v).reg8 q = if q = r then v else c.reg8 q := by
  cases r <;> cases q <;> rfl

@[simp] theorem Cpu.reg8_setReg8_self (c : Cpu) (r : Reg8) (v : Byte) : (c.setReg8 r v).reg8 r = v := by
  cases r <;> rfl

/-! ## Counting R (rule R29) -/

theorem incRTimes_add (m n : Nat) (r : Byte) : incRTimes (m + n) r = incRTimes n (incRTimes m r) := by
  induction m generalizing r with
  | zero => simp [incRTimes]
  | succ m ih => rw [Nat.succ_add]; exact ih (incR r)

theorem bit7_incR (r : Byte) : bit (incR r) 7 = bit r 7 := by
  simp [bit, incR]

theorem bit7_incRTimes (n : Nat) (r : Byte) : bit (incRTimes n r) 7 = bit r 7 := by
  induction n generalizing r with
  | zero => rfl
  | succ n ih => exact (ih (incR r)).trans (bit7_incR r)

/-! ## The accumulator operations (rule R194) -/

/-- Every accumulator operation in every operand form is `alu8` on A and the operand, written to A and F. -/
theorem exec_aluInstr (s : State) (op : AluOp) (src : AluSource) :
    ∃ t, exec (aluInstr op src) s = .next t ∧ Took s t src.cost.1 src.cost.2.1 src.cost.2.2 ∧ OnlyAF s.cpu t.cpu ∧
      SameBytes s t ∧ SameOutside s t ∧ (t.cpu.a, t.cpu.f) = alu8 op s.cpu.a (src.value s) s.cpu.f := by
  cases op <;> cases src <;> exact ⟨_, rfl, ⟨rfl, rfl, rfl⟩, rfl, fun _ => rfl, rfl, rfl⟩

/-! ## Operations that store a byte and set F (rules R216, R255, R264) -/

theorem State.stepMem_eq (s : State) (f : Byte → Byte → Byte × Byte) (a : Word) :
    s.stepMem f a =
      { s with cpu := { s.cpu with f := (f (s.read8 a) s.cpu.f).2 }, mem := (s.stepMem f a).mem } := by
  unfold State.stepMem
  rw [State.write8_eq]
  rfl

theorem storedByte_stepMem {s : State} (hm : s.mem.wf = true) (f : Byte → Byte → Byte × Byte) (a : Word) :
    StoredByte s (s.stepMem f a) a (f (s.read8 a) s.cpu.f).1 :=
  storedByte_write8 (s := s.setF (f (s.read8 a) s.cpu.f).2) hm a _

theorem State.rotMem_eq (s : State) (op : RotOp) (a : Word) :
    s.rotMem op a =
      ((rot8 op (s.read8 a) s.cpu.f).1,
        { s with cpu := { s.cpu with f := (rot8 op (s.read8 a) s.cpu.f).2 }, mem := (s.rotMem op a).2.mem }) := by
  simp only [State.rotMem]
  rw [State.write8_eq]
  rfl

theorem storedByte_rotMem {s : State} (hm : s.mem.wf = true) (op : RotOp) (a : Word) :
    StoredByte s (s.rotMem op a).2 a (rot8 op (s.read8 a) s.cpu.f).1 :=
  storedByte_write8 (s := s.setF (rot8 op (s.read8 a) s.cpu.f).2) hm a _

/-! ## Calls and returns (rules R76, R301, R303) -/

theorem State.callTo_eq (s : State) (target : Word) :
    s.callTo target =
      { s with cpu := { s.cpu with sp := s.cpu.sp - 2#16, pc := target }, mem := (s.push16 s.cpu.pc).mem } := by
  unfold State.callTo
  rw [State.push16_eq]
  rfl

theorem State.popPc_eq (s : State) :
    s.popPc =
      { s with cpu := { s.cpu with sp := s.cpu.sp + 2#16,
                                   pc := mkWord (s.read8 (s.cpu.sp + 1#16)) (s.read8 s.cpu.sp) } } := by
  unfold State.popPc
  rw [State.pop16_eq]
  rfl

theorem State.returnFromInterrupt_eq (s : State) :
    s.returnFromInterrupt =
      { s with cpu := { s.cpu with sp := s.cpu.sp + 2#16, iff1 := s.cpu.iff2,
                                   pc := mkWord (s.read8 (s.cpu.sp + 1#16)) (s.read8 s.cpu.sp) } } := by
  unfold State.returnFromInterrupt
  rw [State.pop16_eq]

/-! ## One round of a block instruction (rules R321 .. R337) -/

/-- The step of HL and DE: up or down by one. -/
def blockDelta (ascending : Bool) : Word := if ascending then up else down

theorem add_blockDelta (ascending : Bool) (v : Word) : v + blockDelta ascending = stepWord ascending v := by
  cases ascending <;> simp [blockDelta, stepWord, up, down]; bv_omega

theorem counted_word (v : Word) : (v - 1#16 != 0#16) = decide (v ≠ 1#16) := by
  rw [Bool.eq_iff_iff]; simp; constructor <;> intro h <;> bv_omega

theorem counted_byte (v : Byte) : (v - 1#8 != 0#8) = decide (v ≠ 1#8) := by
  rw [Bool.eq_iff_iff]; simp; constructor <;> intro h <;> bv_omega

theorem State.blockLd_eq (s : State) (delta : Word) :
    s.blockLd delta =
      { s with
        cpu := { s.cpu with pc := s.cpu.pc + 2#16, r := incRTimes 2 s.cpu.r,
                            b := hiByte (s.cpu.bc - 1#16), c := loByte (s.cpu.bc - 1#16),
                            d := hiByte (s.cpu.de + delta), e := loByte (s.cpu.de + delta),
                            h := hiByte (s.cpu.hl + delta), l := loByte (s.cpu.hl + delta),
                            f := ldFlags s.cpu.a (s.read8 s.cpu.hl) (s.cpu.bc - 1#16) s.cpu.f }
        cursor := { s.cursor with t := s.cursor.t + 16 }
        mem := (s.write8 s.cpu.de (s.read8 s.cpu.hl)).mem } := by
  unfold State.blockLd
  simp only []
  rw [State.write8_eq]
  simp [State.setBc, State.setDe, State.setHl, State.setF, Cpu.bc, Cpu.de, Cpu.hl]
  simp only [State.write8, State.fetched]
  split <;> rfl

theorem State.blockCp_eq (s : State) (delta : Word) :
    s.blockCp delta =
      { s with
        cpu := { s.cpu with pc := s.cpu.pc + 2#16, r := incRTimes 2 s.cpu.r,
                            b := hiByte (s.cpu.bc - 1#16), c := loByte (s.cpu.bc - 1#16),
                            h := hiByte (s.cpu.hl + delta), l := loByte (s.cpu.hl + delta),
                            f := cpFlags s.cpu.a (s.read8 s.cpu.hl) (s.cpu.bc - 1#16) s.cpu.f }
        cursor := { s.cursor with t := s.cursor.t + 16 } } := by
  have e : (((s.fetched 2 2 16).setHl (s.cpu.hl + delta)).setBc (s.cpu.bc - 1#16)).cpu.bc = s.cpu.bc - 1#16 := by
    simp [State.setBc, Cpu.bc]
  unfold State.blockCp
  show State.setF _ (cpFlags _ _ (((s.fetched 2 2 16).setHl (s.cpu.hl + delta)).setBc (s.cpu.bc - 1#16)).cpu.bc _) = _
  rw [e]; rfl

theorem State.blockIn_eq (s : State) (delta : Word) :
    s.blockIn delta =
      { s with
        cpu := { s.cpu with pc := s.cpu.pc + 2#16, r := incRTimes 2 s.cpu.r, b := s.cpu.b - 1#8,
                            h := hiByte (s.cpu.hl + delta), l := loByte (s.cpu.hl + delta),
                            f := ioFlags (s.cpu.b - 1#8) s.cpu.f (Config.freeIoFlags s.freeDraws) }
        cursor := { s.cursor with t := s.cursor.t + 16 }
        mem := (s.write8 s.cpu.hl (s.ioRead s.cpu.bc)).mem
        freeDraws := s.freeDraws + 1 } := by
  have e : ((s.fetched 2 2 16).write8 (s.fetched 2 2 16).cpu.hl ((s.fetched 2 2 16).ioRead (s.fetched 2 2 16).cpu.bc)).mem =
      (s.write8 s.cpu.hl (s.ioRead s.cpu.bc)).mem := by
    unfold State.write8
    show (if s.cpu.hl.toNat < _ then _ else _ : State).mem = _
    split <;> rfl
  unfold State.blockIn
  simp only []
  rw [State.write8_eq]
  simp only [State.setHl, State.setB, State.drawIoFlags]
  rw [e]; rfl

/-- The port write of OUTI and OUTD: B has counted, 12 T-states have passed. -/
theorem State.blockOut_eq (s : State) (delta : Word) :
    s.blockOut delta =
      { s with
        cpu := { s.cpu with pc := s.cpu.pc + 2#16, r := incRTimes 2 s.cpu.r, b := s.cpu.b - 1#8,
                            h := hiByte (s.cpu.hl + delta), l := loByte (s.cpu.hl + delta),
                            f := ioFlags (s.cpu.b - 1#8) s.cpu.f (Config.freeIoFlags s.freeDraws) }
        cursor := { s.cursor with t := s.cursor.t + 16 }
        ula := (((s.fetched 2 2 12).setB (s.cpu.b - 1#8)).ioWrite (mkWord (s.cpu.b - 1#8) s.cpu.c) (s.read8 s.cpu.hl)).ula
        freeDraws := s.freeDraws + 1 } := by
  let u := ((s.fetched 2 2 12).setB (s.cpu.b - 1#8)).ioWrite (mkWord (s.cpu.b - 1#8) s.cpu.c) (s.read8 s.cpu.hl)
  have h : u = { (s.fetched 2 2 12).setB (s.cpu.b - 1#8) with ula := u.ula } := State.ioWrite_eq _ _ _
  show ((State.setHl u (u.cpu.hl + delta)).drawIoFlags).tick 4 = _
  rw [h]; rfl

theorem State.repeatIf_true (s : State) :
    s.repeatIf true =
      { s with cpu := { s.cpu with pc := s.cpu.pc - 2#16 }, cursor := { s.cursor with t := s.cursor.t + 5 } } := rfl

theorem State.repeatIf_false (s : State) : s.repeatIf false = s := rfl

/-! ## Port writes of OUT (rules R353 .. R355) -/

theorem State.outC_eq (s : State) (v : Byte) :
    s.outC v =
      { s with
        cpu := { s.cpu with pc := s.cpu.pc + 2#16, r := incRTimes 2 s.cpu.r }
        cursor := { s.cursor with t := s.cursor.t + 12 }
        ula := ((s.fetched 2 2 8).ioWrite s.cpu.bc v).ula } := by
  have h := State.ioWrite_eq (s.fetched 2 2 8) s.cpu.bc v
  unfold State.outC
  show ((s.fetched 2 2 8).ioWrite s.cpu.bc v).tick 4 = _
  rw [h]; rfl

/-! ## The interrupt (rules R566 .. R568) -/

theorem State.interrupt_eq (s : State) (data : Byte) :
    (s.interrupt data).1 =
      { s with
        cpu := { s.cpu with halted := false, iff1 := false, iff2 := false, sp := s.cpu.sp - 2#16, r := incR s.cpu.r,
                            pc := (s.interrupt data).1.cpu.pc }
        mem := ((s.setPc (if s.cpu.halted then s.cpu.pc + 1#16 else s.cpu.pc)).push16
          (if s.cpu.halted then s.cpu.pc + 1#16 else s.cpu.pc)).mem } := by
  have hm : ∀ (c d : Cpu) (v : Word), c.sp = d.sp →
      (({ s with cpu := c } : State).push16 v).mem = (({ s with cpu := d } : State).push16 v).mem := by
    intro c d v h
    unfold State.push16 State.setSp State.write8
    simp only [h]
    split <;> split <;> rfl
  unfold State.interrupt
  simp only []
  rw [State.push16_eq]
  simp only [State.setPc]
  rw [hm { s.cpu with pc := if s.cpu.halted = true then s.cpu.pc + 1#16 else s.cpu.pc, halted := false, iff1 := false,
                      iff2 := false }
    { s.cpu with pc := if s.cpu.halted = true then s.cpu.pc + 1#16 else s.cpu.pc } _ rfl]

end Sys2Proof.Machine
end

