-- ==== Sys2Proof/Laws/PerInstr.lean ====
section
/-! SUPPORT. PerInstr: the statements made of every instruction one by one, as the host's case split names them. -/

namespace Sys2Proof.Laws

/-- An instruction's encoding has as many bytes as rule R116 says. -/
theorem length_encode (i : Instr) : (encode i).length = i.byteCount := by
  induction i with
  | xpMain xy i ih => exact congrArg (· + 1) ih
  | xpEd xy i ih => exact congrArg (· + 1) ih
  | xpXp xy i ih => exact congrArg (· + 1) ih
  | _ => rfl

namespace Length

/-- The encoding has the length rule R116 gives. -/
def Statement (i : Instr) : Prop := (encode i).length = i.byteCount

theorem nop : Statement .nop := length_encode _
theorem exAfAf : Statement .exAfAf := length_encode _
theorem djnz (e : Byte) : Statement (.djnz e) := length_encode _
theorem jr (e : Byte) : Statement (.jr e) := length_encode _
theorem jrNz (e : Byte) : Statement (.jrNz e) := length_encode _
theorem jrZ (e : Byte) : Statement (.jrZ e) := length_encode _
theorem jrNc (e : Byte) : Statement (.jrNc e) := length_encode _
theorem jrC (e : Byte) : Statement (.jrC e) := length_encode _
theorem ldRpNn (p : Rp) (nn : Word) : Statement (.ldRpNn p nn) := length_encode _
theorem addHlRp (p : Rp) : Statement (.addHlRp p) := length_encode _
theorem ldMemBcA : Statement .ldMemBcA := length_encode _
theorem ldMemDeA : Statement .ldMemDeA := length_encode _
theorem ldMemNnHl (nn : Word) : Statement (.ldMemNnHl nn) := length_encode _
theorem ldMemNnA (nn : Word) : Statement (.ldMemNnA nn) := length_encode _
theorem ldAMemBc : Statement .ldAMemBc := length_encode _
theorem ldAMemDe : Statement .ldAMemDe := length_encode _
theorem ldHlMemNn (nn : Word) : Statement (.ldHlMemNn nn) := length_encode _
theorem ldAMemNn (nn : Word) : Statement (.ldAMemNn nn) := length_encode _
theorem incRp (p : Rp) : Statement (.incRp p) := length_encode _
theorem decRp (p : Rp) : Statement (.decRp p) := length_encode _
theorem incR (r : Reg8) : Statement (.incR r) := length_encode _
theorem incMemHl : Statement .incMemHl := length_encode _
theorem decR (r : Reg8) : Statement (.decR r) := length_encode _
theorem decMemHl : Statement .decMemHl := length_encode _
theorem ldRN (r : Reg8) (n : Byte) : Statement (.ldRN r n) := length_encode _
theorem ldMemHlN (n : Byte) : Statement (.ldMemHlN n) := length_encode _
theorem rlca : Statement .rlca := length_encode _
theorem rrca : Statement .rrca := length_encode _
theorem rla : Statement .rla := length_encode _
theorem rra : Statement .rra := length_encode _
theorem daa : Statement .daa := length_encode _
theorem cpl : Statement .cpl := length_encode _
theorem scf : Statement .scf := length_encode _
theorem ccf : Statement .ccf := length_encode _
theorem ldRR (r : Reg8) (q : Reg8) : Statement (.ldRR r q) := length_encode _
theorem ldRMemHl (r : Reg8) : Statement (.ldRMemHl r) := length_encode _
theorem ldMemHlR (r : Reg8) : Statement (.ldMemHlR r) := length_encode _
theorem halt : Statement .halt := length_encode _
theorem addR (r : Reg8) : Statement (.addR r) := length_encode _
theorem addMemHl : Statement .addMemHl := length_encode _
theorem addN (n : Byte) : Statement (.addN n) := length_encode _
theorem adcR (r : Reg8) : Statement (.adcR r) := length_encode _
theorem adcMemHl : Statement .adcMemHl := length_encode _
theorem adcN (n : Byte) : Statement (.adcN n) := length_encode _
theorem subR (r : Reg8) : Statement (.subR r) := length_encode _
theorem subMemHl : Statement .subMemHl := length_encode _
theorem subN (n : Byte) : Statement (.subN n) := length_encode _
theorem sbcR (r : Reg8) : Statement (.sbcR r) := length_encode _
theorem sbcMemHl : Statement .sbcMemHl := length_encode _
theorem sbcN (n : Byte) : Statement (.sbcN n) := length_encode _
theorem andR (r : Reg8) : Statement (.andR r) := length_encode _
theorem andMemHl : Statement .andMemHl := length_encode _
theorem andN (n : Byte) : Statement (.andN n) := length_encode _
theorem xorR (r : Reg8) : Statement (.xorR r) := length_encode _
theorem xorMemHl : Statement .xorMemHl := length_encode _
theorem xorN (n : Byte) : Statement (.xorN n) := length_encode _
theorem orR (r : Reg8) : Statement (.orR r) := length_encode _
theorem orMemHl : Statement .orMemHl := length_encode _
theorem orN (n : Byte) : Statement (.orN n) := length_encode _
theorem cpR (r : Reg8) : Statement (.cpR r) := length_encode _
theorem cpMemHl : Statement .cpMemHl := length_encode _
theorem cpN (n : Byte) : Statement (.cpN n) := length_encode _
theorem retCc (cc : Cond) : Statement (.retCc cc) := length_encode _
theorem popRp2 (p : Rp2) : Statement (.popRp2 p) := length_encode _
theorem ret : Statement .ret := length_encode _
theorem exx : Statement .exx := length_encode _
theorem jpHl : Statement .jpHl := length_encode _
theorem ldSpHl : Statement .ldSpHl := length_encode _
theorem jpCcNn (cc : Cond) (nn : Word) : Statement (.jpCcNn cc nn) := length_encode _
theorem jpNn (nn : Word) : Statement (.jpNn nn) := length_encode _
theorem outNA (n : Byte) : Statement (.outNA n) := length_encode _
theorem inAN (n : Byte) : Statement (.inAN n) := length_encode _
theorem exSpHl : Statement .exSpHl := length_encode _
theorem exDeHl : Statement .exDeHl := length_encode _
theorem di : Statement .di := length_encode _
theorem ei : Statement .ei := length_encode _
theorem callCcNn (cc : Cond) (nn : Word) : Statement (.callCcNn cc nn) := length_encode _
theorem pushRp2 (p : Rp2) : Statement (.pushRp2 p) := length_encode _
theorem callNn (nn : Word) : Statement (.callNn nn) := length_encode _
theorem rst (y : Fin 8) : Statement (.rst y) := length_encode _
theorem prefixCb : Statement .prefixCb := length_encode _
theorem prefixEd : Statement .prefixEd := length_encode _
theorem prefixXy (xy : Xy) : Statement (.prefixXy xy) := length_encode _
theorem rlcR (r : Reg8) : Statement (.rlcR r) := length_encode _
theorem rlcMemHl : Statement .rlcMemHl := length_encode _
theorem rrcR (r : Reg8) : Statement (.rrcR r) := length_encode _
theorem rrcMemHl : Statement .rrcMemHl := length_encode _
theorem rlR (r : Reg8) : Statement (.rlR r) := length_encode _
theorem rlMemHl : Statement .rlMemHl := length_encode _
theorem rrR (r : Reg8) : Statement (.rrR r) := length_encode _
theorem rrMemHl : Statement .rrMemHl := length_encode _
theorem slaR (r : Reg8) : Statement (.slaR r) := length_encode _
theorem slaMemHl : Statement .slaMemHl := length_encode _
theorem sraR (r : Reg8) : Statement (.sraR r) := length_encode _
theorem sraMemHl : Statement .sraMemHl := length_encode _
theorem sllR (r : Reg8) : Statement (.sllR r) := length_encode _
theorem sllMemHl : Statement .sllMemHl := length_encode _
theorem srlR (r : Reg8) : Statement (.srlR r) := length_encode _
theorem srlMemHl : Statement .srlMemHl := length_encode _
theorem bitR (y : Fin 8) (r : Reg8) : Statement (.bitR y r) := length_encode _
theorem bitMemHl (y : Fin 8) : Statement (.bitMemHl y) := length_encode _
theorem resR (y : Fin 8) (r : Reg8) : Statement (.resR y r) := length_encode _
theorem resMemHl (y : Fin 8) : Statement (.resMemHl y) := length_encode _
theorem setR (y : Fin 8) (r : Reg8) : Statement (.setR y r) := length_encode _
theorem setMemHl (y : Fin 8) : Statement (.setMemHl y) := length_encode _
theorem inRC (r : Reg8) : Statement (.inRC r) := length_encode _
theorem inFC : Statement .inFC := length_encode _
theorem outCR (r : Reg8) : Statement (.outCR r) := length_encode _
theorem outC0 : Statement .outC0 := length_encode _
theorem sbcHlRp (p : Rp) : Statement (.sbcHlRp p) := length_encode _
theorem adcHlRp (p : Rp) : Statement (.adcHlRp p) := length_encode _
theorem ldMemNnRp (p : Rp) (nn : Word) : Statement (.ldMemNnRp p nn) := length_encode _
theorem ldRpMemNn (p : Rp) (nn : Word) : Statement (.ldRpMemNn p nn) := length_encode _
theorem neg (y : Fin 8) : Statement (.neg y) := length_encode _
theorem reti : Statement .reti := length_encode _
theorem retn (y : Fin 8) : Statement (.retn y) := length_encode _
theorem im0 : Statement .im0 := length_encode _
theorem im1 : Statement .im1 := length_encode _
theorem im2 : Statement .im2 := length_encode _
theorem ldIA : Statement .ldIA := length_encode _
theorem ldRefreshA : Statement .ldRefreshA := length_encode _
theorem ldAI : Statement .ldAI := length_encode _
theorem ldARefresh : Statement .ldARefresh := length_encode _
theorem rrd : Statement .rrd := length_encode _
theorem rld : Statement .rld := length_encode _
theorem ldi : Statement .ldi := length_encode _
theorem cpi : Statement .cpi := length_encode _
theorem ini : Statement .ini := length_encode _
theorem outi : Statement .outi := length_encode _
theorem ldd : Statement .ldd := length_encode _
theorem cpd : Statement .cpd := length_encode _
theorem ind : Statement .ind := length_encode _
theorem outd : Statement .outd := length_encode _
theorem ldir : Statement .ldir := length_encode _
theorem cpir : Statement .cpir := length_encode _
theorem inir : Statement .inir := length_encode _
theorem otir : Statement .otir := length_encode _
theorem lddr : Statement .lddr := length_encode _
theorem cpdr : Statement .cpdr := length_encode _
theorem indr : Statement .indr := length_encode _
theorem otdr : Statement .otdr := length_encode _
theorem undefinedEd (op : Byte) : Statement (.undefinedEd op) := length_encode _
theorem addXyRp (xy : Xy) (p : Rp) : Statement (.addXyRp xy p) := length_encode _
theorem ldXyNn (xy : Xy) (nn : Word) : Statement (.ldXyNn xy nn) := length_encode _
theorem ldMemNnXy (xy : Xy) (nn : Word) : Statement (.ldMemNnXy xy nn) := length_encode _
theorem incXy (xy : Xy) : Statement (.incXy xy) := length_encode _
theorem incXyHalf (xy : Xy) (k : Half) : Statement (.incXyHalf xy k) := length_encode _
theorem decXyHalf (xy : Xy) (k : Half) : Statement (.decXyHalf xy k) := length_encode _
theorem ldXyHalfN (xy : Xy) (k : Half) (n : Byte) : Statement (.ldXyHalfN xy k n) := length_encode _
theorem ldXyMemNn (xy : Xy) (nn : Word) : Statement (.ldXyMemNn xy nn) := length_encode _
theorem decXy (xy : Xy) : Statement (.decXy xy) := length_encode _
theorem incXyd (xy : Xy) (d : Byte) : Statement (.incXyd xy d) := length_encode _
theorem decXyd (xy : Xy) (d : Byte) : Statement (.decXyd xy d) := length_encode _
theorem ldXydN (xy : Xy) (d : Byte) (n : Byte) : Statement (.ldXydN xy d n) := length_encode _
theorem ldRXyd (xy : Xy) (r : Reg8) (d : Byte) : Statement (.ldRXyd xy r d) := length_encode _
theorem ldXydR (xy : Xy) (d : Byte) (r : Reg8) : Statement (.ldXydR xy d r) := length_encode _
theorem ldRRXy (xy : Xy) (r : Reg8) (q : Reg8) : Statement (.ldRRXy xy r q) := length_encode _
theorem addXyd (xy : Xy) (d : Byte) : Statement (.addXyd xy d) := length_encode _
theorem addXyHalf (xy : Xy) (k : Half) : Statement (.addXyHalf xy k) := length_encode _
theorem adcXyd (xy : Xy) (d : Byte) : Statement (.adcXyd xy d) := length_encode _
theorem adcXyHalf (xy : Xy) (k : Half) : Statement (.adcXyHalf xy k) := length_encode _
theorem subXyd (xy : Xy) (d : Byte) : Statement (.subXyd xy d) := length_encode _
theorem subXyHalf (xy : Xy) (k : Half) : Statement (.subXyHalf xy k) := length_encode _
theorem sbcXyd (xy : Xy) (d : Byte) : Statement (.sbcXyd xy d) := length_encode _
theorem sbcXyHalf (xy : Xy) (k : Half) : Statement (.sbcXyHalf xy k) := length_encode _
theorem andXyd (xy : Xy) (d : Byte) : Statement (.andXyd xy d) := length_encode _
theorem andXyHalf (xy : Xy) (k : Half) : Statement (.andXyHalf xy k) := length_encode _
theorem xorXyd (xy : Xy) (d : Byte) : Statement (.xorXyd xy d) := length_encode _
theorem xorXyHalf (xy : Xy) (k : Half) : Statement (.xorXyHalf xy k) := length_encode _
theorem orXyd (xy : Xy) (d : Byte) : Statement (.orXyd xy d) := length_encode _
theorem orXyHalf (xy : Xy) (k : Half) : Statement (.orXyHalf xy k) := length_encode _
theorem cpXyd (xy : Xy) (d : Byte) : Statement (.cpXyd xy d) := length_encode _
theorem cpXyHalf (xy : Xy) (k : Half) : Statement (.cpXyHalf xy k) := length_encode _
theorem popXy (xy : Xy) : Statement (.popXy xy) := length_encode _
theorem exSpXy (xy : Xy) : Statement (.exSpXy xy) := length_encode _
theorem pushXy (xy : Xy) : Statement (.pushXy xy) := length_encode _
theorem jpXy (xy : Xy) : Statement (.jpXy xy) := length_encode _
theorem ldSpXy (xy : Xy) : Statement (.ldSpXy xy) := length_encode _
theorem xpMain (xy : Xy) (i : Instr) : Statement (.xpMain xy i) := length_encode _
theorem xpEd (xy : Xy) (i : Instr) : Statement (.xpEd xy i) := length_encode _
theorem xpXp (xy : Xy) (i : Instr) : Statement (.xpXp xy i) := length_encode _
theorem rlcXyd (xy : Xy) (d : Byte) : Statement (.rlcXyd xy d) := length_encode _
theorem rlcXydR (xy : Xy) (d : Byte) (r : Reg8) : Statement (.rlcXydR xy d r) := length_encode _
theorem rrcXyd (xy : Xy) (d : Byte) : Statement (.rrcXyd xy d) := length_encode _
theorem rrcXydR (xy : Xy) (d : Byte) (r : Reg8) : Statement (.rrcXydR xy d r) := length_encode _
theorem rlXyd (xy : Xy) (d : Byte) : Statement (.rlXyd xy d) := length_encode _
theorem rlXydR (xy : Xy) (d : Byte) (r : Reg8) : Statement (.rlXydR xy d r) := length_encode _
theorem rrXyd (xy : Xy) (d : Byte) : Statement (.rrXyd xy d) := length_encode _
theorem rrXydR (xy : Xy) (d : Byte) (r : Reg8) : Statement (.rrXydR xy d r) := length_encode _
theorem slaXyd (xy : Xy) (d : Byte) : Statement (.slaXyd xy d) := length_encode _
theorem slaXydR (xy : Xy) (d : Byte) (r : Reg8) : Statement (.slaXydR xy d r) := length_encode _
theorem sraXyd (xy : Xy) (d : Byte) : Statement (.sraXyd xy d) := length_encode _
theorem sraXydR (xy : Xy) (d : Byte) (r : Reg8) : Statement (.sraXydR xy d r) := length_encode _
theorem sllXyd (xy : Xy) (d : Byte) : Statement (.sllXyd xy d) := length_encode _
theorem sllXydR (xy : Xy) (d : Byte) (r : Reg8) : Statement (.sllXydR xy d r) := length_encode _
theorem srlXyd (xy : Xy) (d : Byte) : Statement (.srlXyd xy d) := length_encode _
theorem srlXydR (xy : Xy) (d : Byte) (r : Reg8) : Statement (.srlXydR xy d r) := length_encode _
theorem bitXyd (xy : Xy) (d : Byte) (y : Fin 8) (z : Fin 8) : Statement (.bitXyd xy d y z) := length_encode _
theorem resXyd (xy : Xy) (d : Byte) (y : Fin 8) : Statement (.resXyd xy d y) := length_encode _
theorem resXydR (xy : Xy) (d : Byte) (y : Fin 8) (r : Reg8) : Statement (.resXydR xy d y r) := length_encode _
theorem setXyd (xy : Xy) (d : Byte) (y : Fin 8) : Statement (.setXyd xy d y) := length_encode _
theorem setXydR (xy : Xy) (d : Byte) (y : Fin 8) (r : Reg8) : Statement (.setXydR xy d y r) := length_encode _

end Length

end Sys2Proof.Laws
end

