-- ==== Sys2Proof/Laws/Requests.lean ====
section
/-! SUPPORT. Requests: what a request of the host comes to, and what the two answers leave alone. -/

namespace Sys2Proof.Machine

/-- While the machine runs, a request's step is the action itself (R546). -/
theorem requestAnswers_iff {s t : State} {e : HostEvent} (h : s.running) :
    RequestAnswers e s t ↔ s.act e = .next t := by
  have hs : step { s with schedule := e :: s.schedule } = s.act e := by
    unfold step
    rw [if_neg (by simpa using h.1)]
    split
    · rename_i r hr
      exact absurd (h.2.symm.trans hr) (by simp)
    · rfl
  rw [RequestAnswers, hs]

theorem requestDone_iff {s t : State} {e : HostEvent} (h : s.running) :
    RequestDone e s t ↔ s.act e = .next t.accept := requestAnswers_iff h

theorem requestRefused_iff {s : State} {m : ErrorMessage} {e : HostEvent} (h : s.running) :
    RequestRefused e s m ↔ s.act e = .next (s.reject m) := requestAnswers_iff h

/-- Every request but an iteration of the main loop is answered. -/
theorem act_answers (s : State) (e : HostEvent) (h : e ≠ .iterate) : ∃ t, s.act e = .next t := by
  cases e <;> first | exact ⟨_, rfl⟩ | exact absurd rfl h

theorem Recorder.fresh_eq (r : Recorder) (format : SessionFormat) (append : Bool) (existing : Option (List Byte)) (keep : Nat) :
    r.fresh format append existing keep = newSession r format append existing keep := rfl

/-- Stopping a session touches the recorder, the destination file, the free-value counter and the answer, nothing else
(R515, R520). -/
theorem State.recordStop_frame (s : State) :
    s.recordStop =
      { s with recorder := s.recordStop.recorder, disk := s.recordStop.disk, freeDraws := s.recordStop.freeDraws,
               hostReply := s.recordStop.hostReply, errorStream := s.recordStop.errorStream } := by
  unfold State.recordStop
  dsimp only
  split
  · split <;> rfl
  · rfl

/-- After it no session is open (R515). -/
@[simp] theorem State.recordStop_enabled (s : State) : s.recordStop.recorder.enabled = false := by
  unfold State.recordStop
  dsimp only
  split
  · split <;> rfl
  · rfl

/-- As many durations as pulses. -/
@[simp] theorem Waveform.durations_length (w : Waveform) : w.durations.length = w.pulses.length := List.length_map ..

/-- Past the end of all pulses there is none to find (R479). -/
theorem findPulse_end {t : Nat} : ∀ {ps : List Nat} {k before : Nat}, ps.sum + before ≤ t → findPulse t k before ps = none
  | [], _, _, _ => rfl
  | p :: ps, k, before, h => by
    rw [List.sum_cons] at h
    rw [findPulse, if_neg (by omega)]
    exact findPulse_end (by omega)

/-- Inside pulse `j`, that pulse and its end are found (R479). -/
theorem findPulse_inside {t : Nat} : ∀ {ps : List Nat} {k before j : Nat}, (ps.take j).sum + before ≤ t →
    t < (ps.take (j + 1)).sum + before → findPulse t k before ps = some (k + j, before + (ps.take (j + 1)).sum)
  | [], _, _, _, h, h' => by
    simp only [List.take_nil, List.sum_nil] at h h'
    omega
  | p :: ps, k, before, 0, _, h' => by
    simp only [List.take_succ_cons, List.take_zero, List.sum_cons, List.sum_nil] at h' ⊢
    rw [findPulse, if_pos (by omega)]
    rfl
  | p :: ps, k, before, j + 1, h, h' => by
    simp only [List.take_succ_cons, List.sum_cons] at h h' ⊢
    rw [findPulse, if_neg (by omega), findPulse_inside (j := j) (by omega) (by simpa using by omega)]
    simp only [Option.some.injEq, Prod.mk.injEq]
    omega

/-! `accept` -/
@[simp] theorem State.accept_cpu (s : State) : (s.accept).cpu = s.cpu := rfl
@[simp] theorem State.accept_cursor (s : State) : (s.accept).cursor = s.cursor := rfl
@[simp] theorem State.accept_mem (s : State) : (s.accept).mem = s.mem := rfl
@[simp] theorem State.accept_clock (s : State) : (s.accept).clock = s.clock := rfl
@[simp] theorem State.accept_frameAcc (s : State) : (s.accept).frameAcc = s.frameAcc := rfl
@[simp] theorem State.accept_keys (s : State) : (s.accept).keys = s.keys := rfl
@[simp] theorem State.accept_ula (s : State) : (s.accept).ula = s.ula := rfl
@[simp] theorem State.accept_beeper (s : State) : (s.accept).beeper = s.beeper := rfl
@[simp] theorem State.accept_tape (s : State) : (s.accept).tape = s.tape := rfl
@[simp] theorem State.accept_recorder (s : State) : (s.accept).recorder = s.recorder := rfl
@[simp] theorem State.accept_fault (s : State) : (s.accept).fault = s.fault := rfl
@[simp] theorem State.accept_config (s : State) : (s.accept).config = s.config := rfl
@[simp] theorem State.accept_disk (s : State) : (s.accept).disk = s.disk := rfl
@[simp] theorem State.accept_schedule (s : State) : (s.accept).schedule = s.schedule := rfl
@[simp] theorem State.accept_audioOpen (s : State) : (s.accept).audioOpen = s.audioOpen := rfl
@[simp] theorem State.accept_audioOut (s : State) : (s.accept).audioOut = s.audioOut := rfl
@[simp] theorem State.accept_framesPresented (s : State) : (s.accept).framesPresented = s.framesPresented := rfl
@[simp] theorem State.accept_hostReply (s : State) : (s.accept).hostReply = none := rfl
@[simp] theorem State.accept_errorStream (s : State) : (s.accept).errorStream = s.errorStream := rfl
@[simp] theorem State.accept_shutDown (s : State) : (s.accept).shutDown = s.shutDown := rfl
@[simp] theorem State.accept_freeDraws (s : State) : (s.accept).freeDraws = s.freeDraws := rfl

/-! `reject` -/
@[simp] theorem State.reject_cpu (s : State) (m : ErrorMessage) : (s.reject m).cpu = s.cpu := rfl
@[simp] theorem State.reject_cursor (s : State) (m : ErrorMessage) : (s.reject m).cursor = s.cursor := rfl
@[simp] theorem State.reject_mem (s : State) (m : ErrorMessage) : (s.reject m).mem = s.mem := rfl
@[simp] theorem State.reject_clock (s : State) (m : ErrorMessage) : (s.reject m).clock = s.clock := rfl
@[simp] theorem State.reject_frameAcc (s : State) (m : ErrorMessage) : (s.reject m).frameAcc = s.frameAcc := rfl
@[simp] theorem State.reject_keys (s : State) (m : ErrorMessage) : (s.reject m).keys = s.keys := rfl
@[simp] theorem State.reject_ula (s : State) (m : ErrorMessage) : (s.reject m).ula = s.ula := rfl
@[simp] theorem State.reject_beeper (s : State) (m : ErrorMessage) : (s.reject m).beeper = s.beeper := rfl
@[simp] theorem State.reject_tape (s : State) (m : ErrorMessage) : (s.reject m).tape = s.tape := rfl
@[simp] theorem State.reject_recorder (s : State) (m : ErrorMessage) : (s.reject m).recorder = s.recorder := rfl
@[simp] theorem State.reject_fault (s : State) (m : ErrorMessage) : (s.reject m).fault = s.fault := rfl
@[simp] theorem State.reject_config (s : State) (m : ErrorMessage) : (s.reject m).config = s.config := rfl
@[simp] theorem State.reject_disk (s : State) (m : ErrorMessage) : (s.reject m).disk = s.disk := rfl
@[simp] theorem State.reject_schedule (s : State) (m : ErrorMessage) : (s.reject m).schedule = s.schedule := rfl
@[simp] theorem State.reject_audioOpen (s : State) (m : ErrorMessage) : (s.reject m).audioOpen = s.audioOpen := rfl
@[simp] theorem State.reject_audioOut (s : State) (m : ErrorMessage) : (s.reject m).audioOut = s.audioOut := rfl
@[simp] theorem State.reject_framesPresented (s : State) (m : ErrorMessage) : (s.reject m).framesPresented = s.framesPresented := rfl
@[simp] theorem State.reject_hostReply (s : State) (m : ErrorMessage) : (s.reject m).hostReply = some m := rfl
@[simp] theorem State.reject_errorStream (s : State) (m : ErrorMessage) : (s.reject m).errorStream = s.errorStream ++ [m] := rfl
@[simp] theorem State.reject_shutDown (s : State) (m : ErrorMessage) : (s.reject m).shutDown = s.shutDown := rfl
@[simp] theorem State.reject_freeDraws (s : State) (m : ErrorMessage) : (s.reject m).freeDraws = s.freeDraws := rfl

end Sys2Proof.Machine
end

