-- ==== Sys2Proof/Tests/Slice0.lean ====
section
/-! SUPPORT. Slice0: the model's own tests.  The words are written out from the encodings of spec/opcode_table.json; the
expected values are those of spec/95_test_vectors.md; the witnesses at the end meet the hypotheses of the statements. -/

namespace Sys2Proof.Tests

open Sys2Proof Sys2Proof.Machine

set_option Elab.async false

/-! ## WellFormed refuses the ill-formed terms (rules R105, R107, R113, R114) -/

theorem test_wf_retn_reti : (Instr.retn 1).wf = false := by decide
theorem test_wf_undefinedEd_of_defined : (Instr.undefinedEd 0x44#8).wf = false := by decide
theorem test_wf_ldRRXy_without_half : (Instr.ldRRXy .ix .b .c).wf = false := by decide
theorem test_wf_xpMain_altered : (Instr.xpMain .ix .jpHl).wf = false := by decide
theorem test_wf_xpMain_altered_half : (Instr.xpMain .iy (.incR .h)).wf = false := by decide
theorem test_wf_xpMain_of_ed : (Instr.xpMain .iy .ldir).wf = false := by decide
theorem test_wf_xpEd_of_main : (Instr.xpEd .ix .nop).wf = false := by decide
theorem test_wf_xpEd_of_ill_formed : (Instr.xpEd .ix (.retn 1)).wf = false := by decide
theorem test_wf_xpXp_of_main : (Instr.xpXp .ix .nop).wf = false := by decide
theorem test_wf_xpXp_of_ill_formed : (Instr.xpXp .ix (.xpMain .iy .jpHl)).wf = false := by decide
theorem test_wf_accepts : (Instr.xpXp .ix (.xpEd .iy (.retn 7))).wf = true := by decide

/-! ## Decoding, constructor by constructor -/

/-- The bytes decode to the instruction, with nothing left. -/
def decodesTo (w : List Byte × Instr) : Bool :=
  match decode w.1 with
  | .ok (i, rest) => decide (i = w.2) && rest.isEmpty
  | .error _ => false

/-- Words of the main table (R108 .. R111). -/
def words_main_1 : List (List Byte × Instr) :=
  [([0b00000000#8], .nop),
   ([0b00001000#8], .exAfAf),
   ([0b00010000#8, 0xE7#8], .djnz 0xE7#8),
   ([0b00011000#8, 0xEE#8], .jr 0xEE#8),
   ([0b00100000#8, 0xE7#8], .jrNz 0xE7#8),
   ([0b00101000#8, 0x61#8], .jrZ 0x61#8),
   ([0b00110000#8, 0x5E#8], .jrNc 0x5E#8),
   ([0b00111000#8, 0xF3#8], .jrC 0xF3#8),
   ([0b00010001#8, 0x30#8, 0xE4#8], .ldRpNn .de 0xE430#16),
   ([0b00101001#8], .addHlRp .hl),
   ([0b00000010#8], .ldMemBcA),
   ([0b00010010#8], .ldMemDeA),
   ([0b00100010#8, 0x48#8, 0x2E#8], .ldMemNnHl 0x2E48#16),
   ([0b00110010#8, 0x15#8, 0xCA#8], .ldMemNnA 0xCA15#16),
   ([0b00001010#8], .ldAMemBc),
   ([0b00011010#8], .ldAMemDe),
   ([0b00101010#8, 0xE7#8, 0x50#8], .ldHlMemNn 0x50E7#16),
   ([0b00111010#8, 0x07#8, 0x20#8], .ldAMemNn 0x2007#16),
   ([0b00000011#8], .incRp .bc),
   ([0b00001011#8], .decRp .bc)]

theorem test_words_main_1 : words_main_1.all decodesTo = true := by decide +kernel

/-- Words of the main table (R108 .. R111). -/
def words_main_2 : List (List Byte × Instr) :=
  [([0b00011100#8], .incR .e),
   ([0b00110100#8], .incMemHl),
   ([0b00011101#8], .decR .e),
   ([0b00110101#8], .decMemHl),
   ([0b00000110#8, 0xED#8], .ldRN .b 0xED#8),
   ([0b00110110#8, 0xA7#8], .ldMemHlN 0xA7#8),
   ([0b00000111#8], .rlca),
   ([0b00001111#8], .rrca),
   ([0b00010111#8], .rla),
   ([0b00011111#8], .rra),
   ([0b00100111#8], .daa),
   ([0b00101111#8], .cpl),
   ([0b00110111#8], .scf),
   ([0b00111111#8], .ccf),
   ([0b01111011#8], .ldRR .a .e),
   ([0b01011110#8], .ldRMemHl .e),
   ([0b01110100#8], .ldMemHlR .h),
   ([0b01110110#8], .halt),
   ([0b10000111#8], .addR .a),
   ([0b10000110#8], .addMemHl)]

theorem test_words_main_2 : words_main_2.all decodesTo = true := by decide +kernel

/-- Words of the main table (R108 .. R111). -/
def words_main_3 : List (List Byte × Instr) :=
  [([0b11000110#8, 0x02#8], .addN 0x02#8),
   ([0b10001001#8], .adcR .c),
   ([0b10001110#8], .adcMemHl),
   ([0b11001110#8, 0xEA#8], .adcN 0xEA#8),
   ([0b10010100#8], .subR .h),
   ([0b10010110#8], .subMemHl),
   ([0b11010110#8, 0xD0#8], .subN 0xD0#8),
   ([0b10011001#8], .sbcR .c),
   ([0b10011110#8], .sbcMemHl),
   ([0b11011110#8, 0x82#8], .sbcN 0x82#8),
   ([0b10100101#8], .andR .l),
   ([0b10100110#8], .andMemHl),
   ([0b11100110#8, 0x75#8], .andN 0x75#8),
   ([0b10101100#8], .xorR .h),
   ([0b10101110#8], .xorMemHl),
   ([0b11101110#8, 0x0F#8], .xorN 0x0F#8),
   ([0b10110001#8], .orR .c),
   ([0b10110110#8], .orMemHl),
   ([0b11110110#8, 0x37#8], .orN 0x37#8),
   ([0b10111001#8], .cpR .c)]

theorem test_words_main_3 : words_main_3.all decodesTo = true := by decide +kernel

/-- Words of the main table (R108 .. R111). -/
def words_main_4 : List (List Byte × Instr) :=
  [([0b10111110#8], .cpMemHl),
   ([0b11111110#8, 0x94#8], .cpN 0x94#8),
   ([0b11001000#8], .retCc .z),
   ([0b11000001#8], .popRp2 .bc),
   ([0b11001001#8], .ret),
   ([0b11011001#8], .exx),
   ([0b11101001#8], .jpHl),
   ([0b11111001#8], .ldSpHl),
   ([0b11000010#8, 0x6D#8, 0x6B#8], .jpCcNn .nz 0x6B6D#16),
   ([0b11000011#8, 0x1A#8, 0xF0#8], .jpNn 0xF01A#16),
   ([0b11010011#8, 0xC0#8], .outNA 0xC0#8),
   ([0b11011011#8, 0xCB#8], .inAN 0xCB#8),
   ([0b11100011#8], .exSpHl),
   ([0b11101011#8], .exDeHl),
   ([0b11110011#8], .di),
   ([0b11111011#8], .ei),
   ([0b11100100#8, 0x25#8, 0x65#8], .callCcNn .po 0x6525#16),
   ([0b11100101#8], .pushRp2 .hl),
   ([0b11001101#8, 0x2C#8, 0x9F#8], .callNn 0x9F2C#16),
   ([0b11101111#8], .rst 5)]

theorem test_words_main_4 : words_main_4.all decodesTo = true := by decide +kernel

/-- Words of the bare prefix bytes, with nothing behind them (R103, R107). -/
def words_prefix : List (List Byte × Instr) :=
  [([0b11001011#8], .prefixCb),
   ([0b11101101#8], .prefixEd),
   ([0b11011101#8], .prefixXy .ix)]

theorem test_words_prefix : words_prefix.all decodesTo = true := by decide +kernel

/-- Words of the CB table (R112). -/
def words_cb_1 : List (List Byte × Instr) :=
  [([0b11001011#8, 0b00000001#8], .rlcR .c),
   ([0b11001011#8, 0b00000110#8], .rlcMemHl),
   ([0b11001011#8, 0b00001010#8], .rrcR .d),
   ([0b11001011#8, 0b00001110#8], .rrcMemHl),
   ([0b11001011#8, 0b00010011#8], .rlR .e),
   ([0b11001011#8, 0b00010110#8], .rlMemHl),
   ([0b11001011#8, 0b00011001#8], .rrR .c),
   ([0b11001011#8, 0b00011110#8], .rrMemHl),
   ([0b11001011#8, 0b00100000#8], .slaR .b),
   ([0b11001011#8, 0b00100110#8], .slaMemHl),
   ([0b11001011#8, 0b00101000#8], .sraR .b),
   ([0b11001011#8, 0b00101110#8], .sraMemHl),
   ([0b11001011#8, 0b00110111#8], .sllR .a),
   ([0b11001011#8, 0b00110110#8], .sllMemHl),
   ([0b11001011#8, 0b00111111#8], .srlR .a),
   ([0b11001011#8, 0b00111110#8], .srlMemHl),
   ([0b11001011#8, 0b01010011#8], .bitR 2 .e),
   ([0b11001011#8, 0b01111110#8], .bitMemHl 7),
   ([0b11001011#8, 0b10011010#8], .resR 3 .d),
   ([0b11001011#8, 0b10110110#8], .resMemHl 6)]

theorem test_words_cb_1 : words_cb_1.all decodesTo = true := by decide +kernel

/-- Words of the CB table (R112). -/
def words_cb_2 : List (List Byte × Instr) :=
  [([0b11001011#8, 0b11110001#8], .setR 6 .c),
   ([0b11001011#8, 0b11110110#8], .setMemHl 6)]

theorem test_words_cb_2 : words_cb_2.all decodesTo = true := by decide +kernel

/-- Words of the ED table (R113, R114). -/
def words_ed_1 : List (List Byte × Instr) :=
  [([0b11101101#8, 0b01011000#8], .inRC .e),
   ([0b11101101#8, 0b01110000#8], .inFC),
   ([0b11101101#8, 0b01000001#8], .outCR .b),
   ([0b11101101#8, 0b01110001#8], .outC0),
   ([0b11101101#8, 0b01100010#8], .sbcHlRp .hl),
   ([0b11101101#8, 0b01101010#8], .adcHlRp .hl),
   ([0b11101101#8, 0b01000011#8, 0x6B#8, 0x5F#8], .ldMemNnRp .bc 0x5F6B#16),
   ([0b11101101#8, 0b01111011#8, 0x33#8, 0x15#8], .ldRpMemNn .sp 0x1533#16),
   ([0b11101101#8, 0b01010100#8], .neg 2),
   ([0b11101101#8, 0b01001101#8], .reti),
   ([0b11101101#8, 0b01101101#8], .retn 5),
   ([0b11101101#8, 0b01000110#8], .im0),
   ([0b11101101#8, 0b01010110#8], .im1),
   ([0b11101101#8, 0b01011110#8], .im2),
   ([0b11101101#8, 0b01000111#8], .ldIA),
   ([0b11101101#8, 0b01001111#8], .ldRefreshA),
   ([0b11101101#8, 0b01010111#8], .ldAI),
   ([0b11101101#8, 0b01011111#8], .ldARefresh),
   ([0b11101101#8, 0b01100111#8], .rrd),
   ([0b11101101#8, 0b01101111#8], .rld)]

theorem test_words_ed_1 : words_ed_1.all decodesTo = true := by decide +kernel

/-- Words of the ED table (R113, R114). -/
def words_ed_2 : List (List Byte × Instr) :=
  [([0b11101101#8, 0b10100000#8], .ldi),
   ([0b11101101#8, 0b10100001#8], .cpi),
   ([0b11101101#8, 0b10100010#8], .ini),
   ([0b11101101#8, 0b10100011#8], .outi),
   ([0b11101101#8, 0b10101000#8], .ldd),
   ([0b11101101#8, 0b10101001#8], .cpd),
   ([0b11101101#8, 0b10101010#8], .ind),
   ([0b11101101#8, 0b10101011#8], .outd),
   ([0b11101101#8, 0b10110000#8], .ldir),
   ([0b11101101#8, 0b10110001#8], .cpir),
   ([0b11101101#8, 0b10110010#8], .inir),
   ([0b11101101#8, 0b10110011#8], .otir),
   ([0b11101101#8, 0b10111000#8], .lddr),
   ([0b11101101#8, 0b10111001#8], .cpdr),
   ([0b11101101#8, 0b10111010#8], .indr),
   ([0b11101101#8, 0b10111011#8], .otdr),
   ([0b11101101#8, 0b01001110#8], .undefinedEd 0x4E#8)]

theorem test_words_ed_2 : words_ed_2.all decodesTo = true := by decide +kernel

/-- Words of the indexed table (R104, R105). -/
def words_xp_1 : List (List Byte × Instr) :=
  [([0b11111101#8, 0b00001001#8], .addXyRp .iy .bc),
   ([0b11111101#8, 0b00100001#8, 0x97#8, 0xC5#8], .ldXyNn .iy 0xC597#16),
   ([0b11011101#8, 0b00100010#8, 0x26#8, 0x2E#8], .ldMemNnXy .ix 0x2E26#16),
   ([0b11011101#8, 0b00100011#8], .incXy .ix),
   ([0b11011101#8, 0b00100100#8], .incXyHalf .ix .hi),
   ([0b11111101#8, 0b00101101#8], .decXyHalf .iy .lo),
   ([0b11111101#8, 0b00100110#8, 0xF7#8], .ldXyHalfN .iy .hi 0xF7#8),
   ([0b11011101#8, 0b00101010#8, 0xC5#8, 0x5D#8], .ldXyMemNn .ix 0x5DC5#16),
   ([0b11011101#8, 0b00101011#8], .decXy .ix),
   ([0b11111101#8, 0b00110100#8, 0x74#8], .incXyd .iy 0x74#8),
   ([0b11011101#8, 0b00110101#8, 0x61#8], .decXyd .ix 0x61#8),
   ([0b11011101#8, 0b00110110#8, 0x64#8, 0xC6#8], .ldXydN .ix 0x64#8 0xC6#8),
   ([0b11111101#8, 0b01001110#8, 0xD7#8], .ldRXyd .iy .c 0xD7#8),
   ([0b11011101#8, 0b01110001#8, 0x37#8], .ldXydR .ix 0x37#8 .c),
   ([0b11011101#8, 0b01100011#8], .ldRRXy .ix .h .e),
   ([0b11111101#8, 0b10000110#8, 0x83#8], .addXyd .iy 0x83#8),
   ([0b11111101#8, 0b10000101#8], .addXyHalf .iy .lo),
   ([0b11111101#8, 0b10001110#8, 0x59#8], .adcXyd .iy 0x59#8),
   ([0b11011101#8, 0b10001100#8], .adcXyHalf .ix .hi),
   ([0b11011101#8, 0b10010110#8, 0xF5#8], .subXyd .ix 0xF5#8)]

theorem test_words_xp_1 : words_xp_1.all decodesTo = true := by decide +kernel

/-- Words of the indexed table (R104, R105). -/
def words_xp_2 : List (List Byte × Instr) :=
  [([0b11011101#8, 0b10010101#8], .subXyHalf .ix .lo),
   ([0b11011101#8, 0b10011110#8, 0x68#8], .sbcXyd .ix 0x68#8),
   ([0b11011101#8, 0b10011100#8], .sbcXyHalf .ix .hi),
   ([0b11111101#8, 0b10100110#8, 0xD2#8], .andXyd .iy 0xD2#8),
   ([0b11111101#8, 0b10100100#8], .andXyHalf .iy .hi),
   ([0b11011101#8, 0b10101110#8, 0x17#8], .xorXyd .ix 0x17#8),
   ([0b11011101#8, 0b10101101#8], .xorXyHalf .ix .lo),
   ([0b11111101#8, 0b10110110#8, 0x43#8], .orXyd .iy 0x43#8),
   ([0b11011101#8, 0b10110101#8], .orXyHalf .ix .lo),
   ([0b11011101#8, 0b10111110#8, 0xE6#8], .cpXyd .ix 0xE6#8),
   ([0b11111101#8, 0b10111100#8], .cpXyHalf .iy .hi),
   ([0b11011101#8, 0b11100001#8], .popXy .ix),
   ([0b11011101#8, 0b11100011#8], .exSpXy .ix),
   ([0b11111101#8, 0b11100101#8], .pushXy .iy),
   ([0b11111101#8, 0b11101001#8], .jpXy .iy),
   ([0b11111101#8, 0b11111001#8], .ldSpXy .iy)]

theorem test_words_xp_2 : words_xp_2.all decodesTo = true := by decide +kernel

/-- Words of the indexed bit table (R106). -/
def words_xpcb_1 : List (List Byte × Instr) :=
  [([0b11011101#8, 0b11001011#8, 0x0A#8, 0b00000110#8], .rlcXyd .ix 0x0A#8),
   ([0b11011101#8, 0b11001011#8, 0xF6#8, 0b00000001#8], .rlcXydR .ix 0xF6#8 .c),
   ([0b11111101#8, 0b11001011#8, 0xA3#8, 0b00001110#8], .rrcXyd .iy 0xA3#8),
   ([0b11011101#8, 0b11001011#8, 0x25#8, 0b00001001#8], .rrcXydR .ix 0x25#8 .c),
   ([0b11111101#8, 0b11001011#8, 0xBC#8, 0b00010110#8], .rlXyd .iy 0xBC#8),
   ([0b11011101#8, 0b11001011#8, 0x42#8, 0b00010101#8], .rlXydR .ix 0x42#8 .l),
   ([0b11111101#8, 0b11001011#8, 0x2B#8, 0b00011110#8], .rrXyd .iy 0x2B#8),
   ([0b11111101#8, 0b11001011#8, 0x27#8, 0b00011000#8], .rrXydR .iy 0x27#8 .b),
   ([0b11111101#8, 0b11001011#8, 0x07#8, 0b00100110#8], .slaXyd .iy 0x07#8),
   ([0b11111101#8, 0b11001011#8, 0xC2#8, 0b00100000#8], .slaXydR .iy 0xC2#8 .b),
   ([0b11011101#8, 0b11001011#8, 0x29#8, 0b00101110#8], .sraXyd .ix 0x29#8),
   ([0b11011101#8, 0b11001011#8, 0x3B#8, 0b00101100#8], .sraXydR .ix 0x3B#8 .h),
   ([0b11111101#8, 0b11001011#8, 0xA9#8, 0b00110110#8], .sllXyd .iy 0xA9#8),
   ([0b11111101#8, 0b11001011#8, 0xEA#8, 0b00110111#8], .sllXydR .iy 0xEA#8 .a),
   ([0b11111101#8, 0b11001011#8, 0x2A#8, 0b00111110#8], .srlXyd .iy 0x2A#8),
   ([0b11011101#8, 0b11001011#8, 0x9E#8, 0b00111001#8], .srlXydR .ix 0x9E#8 .c),
   ([0b11111101#8, 0b11001011#8, 0x0B#8, 0b01011001#8], .bitXyd .iy 0x0B#8 3 1),
   ([0b11111101#8, 0b11001011#8, 0xF8#8, 0b10100110#8], .resXyd .iy 0xF8#8 4),
   ([0b11011101#8, 0b11001011#8, 0xBC#8, 0b10100010#8], .resXydR .ix 0xBC#8 4 .d),
   ([0b11011101#8, 0b11001011#8, 0x56#8, 0b11101110#8], .setXyd .ix 0x56#8 5)]

theorem test_words_xpcb_1 : words_xpcb_1.all decodesTo = true := by decide +kernel

/-- Words of the indexed bit table (R106). -/
def words_xpcb_2 : List (List Byte × Instr) :=
  [([0b11111101#8, 0b11001011#8, 0xFF#8, 0b11011101#8], .setXydR .iy 0xFF#8 3 .l)]

theorem test_words_xpcb_2 : words_xpcb_2.all decodesTo = true := by decide +kernel

/-- Words of index prefixes in front of what they do not alter (R103, R107, R363). -/
def words_xp_plain : List (List Byte × Instr) :=
  [([0b11011101#8, 0b00000000#8], .xpMain .ix .nop),
   ([0b11111101#8, 0b11101011#8], .xpMain .iy .exDeHl),
   ([0b11011101#8, 0b01000001#8], .xpMain .ix (.ldRR .b .c)),
   ([0b11111101#8, 0b11101101#8, 0b01000100#8], .xpEd .iy (.neg 0)),
   ([0b11011101#8, 0b11101101#8, 0b11111111#8], .xpEd .ix (.undefinedEd 0xFF#8)),
   ([0b11011101#8, 0b11111101#8, 0b00100001#8, 0x34#8, 0x12#8], .xpXp .ix (.ldXyNn .iy 0x1234#16)),
   ([0b11111101#8, 0b11011101#8, 0b11001011#8, 0x01#8, 0b00000110#8], .xpXp .iy (.rlcXyd .ix 0x01#8)),
   ([0b11011101#8, 0b11111101#8], .xpXp .ix (.prefixXy .iy))]

theorem test_words_xp_plain : words_xp_plain.all decodesTo = true := by decide +kernel

/-- No bytes, and an instruction cut short, are refused. -/
theorem test_decode_refuses : [[], [0x3E#8], [0xDD#8, 0xCB#8, 0x01#8], [0xED#8, 0x43#8, 0x00#8]].all
    (fun w => match decode w with | .ok _ => false | .error _ => true) = true := by decide +kernel

/-- The table's numbering: a row's bytes are one number, the first byte in its highest bits (log 20). -/
theorem test_decodeTableWord : decodeTableWord 8 0x3E = some (.ldRN .a 0x00#8) ∧
    decodeTableWord 16 0xDD2B = some (.decXy .ix) ∧ decodeTableWord 16 0xED4E = some (.undefinedEd 0x4E#8) ∧
    decodeTableWord 32 0xDDCB0206 = some (.rlcXyd .ix 0x02#8) := by decide +kernel

/-! ## One step each: the vectors V1 .. V8 -/

/-- A row of the tables V1 .. V8: reset with PC at 0x8000 and the bytes there, changed as the row says; what the step leaves,
its T-states and its counts of R.  `anyF` leaves F out, where five of its bits are a free value (rule R337). -/
structure Vec where
  bytes : List Byte
  at_ : Word := 0x8000#16
  before : Cpu → Cpu := fun c => c
  mem : List (Nat × Byte) := []
  outside : State → State := fun s => s
  after : Cpu → Cpu := fun c => c
  pc : Word
  stored : List (Nat × Byte) := []
  anyF : Bool := false
  t : Nat
  r : Nat

/-- Bytes put into memory, in ROM too. -/
def putAll (m : Memory) (l : List (Nat × Byte)) : Memory := l.foldl (fun m p => m.put p.1 p.2) m

/-- The row's start state. -/
def Vec.start (v : Vec) : State :=
  let s := v.outside State.reset
  { s with cpu := v.before { s.cpu with pc := v.at_ }, mem := (putAll [] v.mem).putBytes v.at_ v.bytes }

/-- One step gives the row's CPU, memory and clock. -/
def Vec.ok (v : Vec) : Bool :=
  let s := v.start
  match step s with
  | .next u =>
    let c : Cpu := { v.after { s.cpu with r := incRTimes v.r s.cpu.r } with pc := v.pc }
    let shown : Cpu → Cpu := fun c => if v.anyF then { c with f := 0#8 } else c
    decide (shown u.cpu = shown c) && decide (u.mem = putAll s.mem v.stored) &&
      decide (u.clock = v.t)
  | _ => false

/-- V1 of spec/95_test_vectors.md: 8-bit loads. -/
def vectors_load8_1 : List Vec :=
  [{ bytes := [0x41#8], before := fun c => { c with c := 0x5A#8 }, after := fun c => { c with b := 0x5A#8 },
      pc := 0x8001#16, t := 4, r := 1 },
   { bytes := [0x65#8], before := fun c => { c with h := 0x12#8, l := 0xEF#8 },
      after := fun c => { c with h := 0xEF#8 }, pc := 0x8001#16, t := 4, r := 1 },
   { bytes := [0x3E#8, 0xFF#8], before := fun c => { c with a := 0x00#8 },
      after := fun c => { c with a := 0xFF#8 }, pc := 0x8002#16, t := 7, r := 1 },
   { bytes := [0x5E#8], before := fun c => { c with h := 0x90#8, l := 0x00#8 }, mem := [(0x9000, 0x77#8)],
      after := fun c => { c with e := 0x77#8 }, pc := 0x8001#16, t := 7, r := 1 },
   { bytes := [0x70#8], before := fun c => { c with h := 0x90#8, l := 0x00#8, b := 0x3C#8 }, pc := 0x8001#16,
      stored := [(0x9000, 0x3C#8)], t := 7, r := 1 },
   { bytes := [0x74#8], before := fun c => { c with h := 0x90#8, l := 0x00#8 }, pc := 0x8001#16,
      stored := [(0x9000, 0x90#8)], t := 7, r := 1 },
   { bytes := [0x36#8, 0x55#8], before := fun c => { c with h := 0x10#8, l := 0x00#8 }, pc := 0x8002#16,
      t := 10, r := 1 },
   { bytes := [0x36#8, 0x55#8], before := fun c => { c with h := 0x40#8, l := 0x00#8 }, pc := 0x8002#16,
      stored := [(0x4000, 0x55#8)], t := 10, r := 1 },
   { bytes := [0x0A#8], before := fun c => { c with b := 0x90#8, c := 0x00#8, a := 0x00#8 },
      mem := [(0x9000, 0x11#8)], after := fun c => { c with a := 0x11#8 }, pc := 0x8001#16, t := 7, r := 1 },
   { bytes := [0x1A#8], before := fun c => { c with d := 0xFF#8, e := 0xFF#8, a := 0x00#8 },
      mem := [(0xFFFF, 0x22#8)], after := fun c => { c with a := 0x22#8 }, pc := 0x8001#16, t := 7, r := 1 },
   { bytes := [0x3A#8, 0xFF#8, 0xFF#8], before := fun c => { c with a := 0x00#8 }, mem := [(0xFFFF, 0x42#8)],
      after := fun c => { c with a := 0x42#8 }, pc := 0x8003#16, t := 13, r := 1 },
   { bytes := [0x02#8], before := fun c => { c with b := 0x90#8, c := 0x00#8, a := 0x33#8 }, pc := 0x8001#16,
      stored := [(0x9000, 0x33#8)], t := 7, r := 1 },
   { bytes := [0x12#8], before := fun c => { c with d := 0x90#8, e := 0x00#8, a := 0x44#8 }, pc := 0x8001#16,
      stored := [(0x9000, 0x44#8)], t := 7, r := 1 },
   { bytes := [0x32#8, 0x00#8, 0x40#8], before := fun c => { c with a := 0x99#8 }, pc := 0x8003#16,
      stored := [(0x4000, 0x99#8)], t := 13, r := 1 },
   { bytes := [0xED#8, 0x57#8],
      before := fun c => { c with i := 0x80#8, iff2 := true, a := 0x00#8, f := 0x01#8 },
      after := fun c => { c with a := 0x80#8, f := 0x85#8 }, pc := 0x8002#16, t := 9, r := 2 },
   { bytes := [0xED#8, 0x57#8],
      before := fun c => { c with i := 0x00#8, iff2 := false, a := 0x55#8, f := 0xFF#8 },
      after := fun c => { c with a := 0x00#8, f := 0x41#8 }, pc := 0x8002#16, t := 9, r := 2 }]

theorem test_vectors_load8_1 : vectors_load8_1.all Vec.ok = true := by decide +kernel

/-- V1 of spec/95_test_vectors.md: 8-bit loads. -/
def vectors_load8_2 : List Vec :=
  [{ bytes := [0xED#8, 0x5F#8],
      before := fun c => { c with r := 0x7E#8, iff2 := false, a := 0x55#8, f := 0x00#8 },
      after := fun c => { c with a := 0x00#8, f := 0x40#8 }, pc := 0x8002#16, t := 9, r := 2 },
   { bytes := [0xED#8, 0x5F#8],
      before := fun c => { c with r := 0xFF#8, iff2 := true, a := 0x00#8, f := 0x00#8 },
      after := fun c => { c with a := 0x81#8, f := 0x84#8 }, pc := 0x8002#16, t := 9, r := 2 },
   { bytes := [0xED#8, 0x47#8], before := fun c => { c with a := 0x80#8, f := 0xFF#8 },
      after := fun c => { c with i := 0x80#8 }, pc := 0x8002#16, t := 9, r := 2 },
   { bytes := [0xED#8, 0x4F#8], before := fun c => { c with a := 0xFF#8, r := 0x05#8 },
      after := fun c => { c with r := 0xFF#8 }, pc := 0x8002#16, t := 9, r := 0 },
   { bytes := [0xDD#8, 0x66#8, 0x05#8], before := fun c => { c with ix := 0x9000#16, h := 0x00#8, l := 0x00#8 },
      mem := [(0x9005, 0xAB#8)], after := fun c => { c with h := 0xAB#8 }, pc := 0x8003#16, t := 19, r := 2 },
   { bytes := [0xFD#8, 0x75#8, 0xFF#8], before := fun c => { c with iy := 0x9000#16, h := 0x12#8, l := 0xCD#8 },
      pc := 0x8003#16, stored := [(0x8FFF, 0xCD#8)], t := 19, r := 2 },
   { bytes := [0xDD#8, 0x36#8, 0x7F#8, 0x5A#8], before := fun c => { c with ix := 0xFF90#16 }, pc := 0x8004#16,
      t := 19, r := 2 },
   { bytes := [0xDD#8, 0x36#8, 0x80#8, 0x5A#8], before := fun c => { c with ix := 0x0010#16 }, pc := 0x8004#16,
      stored := [(0xFF90, 0x5A#8)], t := 19, r := 2 },
   { bytes := [0xDD#8, 0x45#8], before := fun c => { c with ix := 0x1234#16, b := 0x00#8 },
      after := fun c => { c with b := 0x34#8 }, pc := 0x8002#16, t := 8, r := 2 },
   { bytes := [0xFD#8, 0x6C#8], before := fun c => { c with iy := 0x12FF#16 },
      after := fun c => { c with iy := 0x1212#16 }, pc := 0x8002#16, t := 8, r := 2 },
   { bytes := [0xDD#8, 0x26#8, 0x12#8], before := fun c => { c with ix := 0xFFFF#16 },
      after := fun c => { c with ix := 0x12FF#16 }, pc := 0x8003#16, t := 11, r := 2 }]

theorem test_vectors_load8_2 : vectors_load8_2.all Vec.ok = true := by decide +kernel

/-- V2 of spec/95_test_vectors.md: 16-bit loads, the stack, the exchanges. -/
def vectors_load16_1 : List Vec :=
  [{ bytes := [0x01#8, 0x34#8, 0x12#8], before := fun c => { c with b := 0x00#8, c := 0x00#8 },
      after := fun c => { c with b := 0x12#8, c := 0x34#8 }, pc := 0x8003#16, t := 10, r := 1 },
   { bytes := [0x31#8, 0x00#8, 0x00#8], before := fun c => { c with sp := 0x1234#16 },
      after := fun c => { c with sp := 0x0000#16 }, pc := 0x8003#16, t := 10, r := 1 },
   { bytes := [0x2A#8, 0xFF#8, 0xFF#8], before := fun c => { c with h := 0x00#8, l := 0x00#8 },
      mem := [(0xFFFF, 0x34#8)], after := fun c => { c with l := 0x34#8, h := 0x00#8 }, pc := 0x8003#16,
      t := 16, r := 1 },
   { bytes := [0x22#8, 0x00#8, 0x90#8], before := fun c => { c with h := 0xBE#8, l := 0xEF#8 }, pc := 0x8003#16,
      stored := [(0x9000, 0xEF#8), (0x9001, 0xBE#8)], t := 16, r := 1 },
   { bytes := [0xED#8, 0x5B#8, 0x00#8, 0x90#8], before := fun c => { c with d := 0x00#8, e := 0x00#8 },
      mem := [(0x9000, 0x78#8), (0x9001, 0x56#8)], after := fun c => { c with d := 0x56#8, e := 0x78#8 },
      pc := 0x8004#16, t := 20, r := 2 },
   { bytes := [0xED#8, 0x6B#8, 0x00#8, 0x90#8], before := fun c => { c with h := 0x00#8, l := 0x00#8 },
      mem := [(0x9000, 0x78#8), (0x9001, 0x56#8)], after := fun c => { c with h := 0x56#8, l := 0x78#8 },
      pc := 0x8004#16, t := 20, r := 2 },
   { bytes := [0xED#8, 0x73#8, 0x00#8, 0x90#8], before := fun c => { c with sp := 0xCAFE#16 }, pc := 0x8004#16,
      stored := [(0x9000, 0xFE#8), (0x9001, 0xCA#8)], t := 20, r := 2 },
   { bytes := [0xF9#8], before := fun c => { c with h := 0x43#8, l := 0x21#8, sp := 0x0000#16 },
      after := fun c => { c with sp := 0x4321#16 }, pc := 0x8001#16, t := 6, r := 1 },
   { bytes := [0xC5#8], before := fun c => { c with b := 0x12#8, c := 0x34#8, sp := 0x9000#16 },
      after := fun c => { c with sp := 0x8FFE#16 }, pc := 0x8001#16,
      stored := [(0x8FFE, 0x34#8), (0x8FFF, 0x12#8)], t := 11, r := 1 },
   { bytes := [0xF5#8], before := fun c => { c with a := 0x12#8, f := 0xFF#8, sp := 0x9000#16 },
      after := fun c => { c with sp := 0x8FFE#16 }, pc := 0x8001#16,
      stored := [(0x8FFE, 0xFF#8), (0x8FFF, 0x12#8)], t := 11, r := 1 },
   { bytes := [0xE5#8], before := fun c => { c with h := 0xA1#8, l := 0xB2#8, sp := 0x0001#16 },
      after := fun c => { c with sp := 0xFFFF#16 }, pc := 0x8001#16, stored := [(0xFFFF, 0xB2#8)], t := 11,
      r := 1 },
   { bytes := [0xE5#8], before := fun c => { c with h := 0xA1#8, l := 0xB2#8, sp := 0x2000#16 },
      after := fun c => { c with sp := 0x1FFE#16 }, pc := 0x8001#16, t := 11, r := 1 },
   { bytes := [0xF1#8], before := fun c => { c with sp := 0x9000#16, a := 0x00#8, f := 0x00#8 },
      mem := [(0x9000, 0xFF#8), (0x9001, 0x12#8)],
      after := fun c => { c with a := 0x12#8, f := 0xFF#8, sp := 0x9002#16 }, pc := 0x8001#16, t := 10,
      r := 1 },
   { bytes := [0xD1#8], before := fun c => { c with sp := 0xFFFF#16, d := 0x00#8, e := 0x00#8 },
      mem := [(0xFFFF, 0x34#8)], after := fun c => { c with e := 0x34#8, d := 0x00#8, sp := 0x0001#16 },
      pc := 0x8001#16, t := 10, r := 1 },
   { bytes := [0xDD#8, 0x21#8, 0xCD#8, 0xAB#8], before := fun c => { c with ix := 0x0000#16 },
      after := fun c => { c with ix := 0xABCD#16 }, pc := 0x8004#16, t := 14, r := 2 },
   { bytes := [0xFD#8, 0x2A#8, 0x00#8, 0x90#8], before := fun c => { c with iy := 0x0000#16 },
      mem := [(0x9000, 0x78#8), (0x9001, 0x56#8)], after := fun c => { c with iy := 0x5678#16 },
      pc := 0x8004#16, t := 20, r := 2 }]

theorem test_vectors_load16_1 : vectors_load16_1.all Vec.ok = true := by decide +kernel

/-- V2 of spec/95_test_vectors.md: 16-bit loads, the stack, the exchanges. -/
def vectors_load16_2 : List Vec :=
  [{ bytes := [0xFD#8, 0x22#8, 0x00#8, 0x90#8], before := fun c => { c with iy := 0x1357#16 }, pc := 0x8004#16,
      stored := [(0x9000, 0x57#8), (0x9001, 0x13#8)], t := 20, r := 2 },
   { bytes := [0xDD#8, 0xF9#8], before := fun c => { c with ix := 0x4321#16, sp := 0x0000#16 },
      after := fun c => { c with sp := 0x4321#16 }, pc := 0x8002#16, t := 10, r := 2 },
   { bytes := [0xDD#8, 0xE5#8], before := fun c => { c with ix := 0x1234#16, sp := 0x9000#16 },
      after := fun c => { c with sp := 0x8FFE#16 }, pc := 0x8002#16,
      stored := [(0x8FFE, 0x34#8), (0x8FFF, 0x12#8)], t := 15, r := 2 },
   { bytes := [0xDD#8, 0xE1#8], before := fun c => { c with sp := 0x9000#16, ix := 0x0000#16 },
      mem := [(0x9000, 0x78#8), (0x9001, 0x56#8)],
      after := fun c => { c with ix := 0x5678#16, sp := 0x9002#16 }, pc := 0x8002#16, t := 14, r := 2 },
   { bytes := [0xEB#8], before := fun c => { c with d := 0x11#8, e := 0x11#8, h := 0x22#8, l := 0x22#8 },
      after := fun c => { c with d := 0x22#8, e := 0x22#8, h := 0x11#8, l := 0x11#8 }, pc := 0x8001#16,
      t := 4, r := 1 },
   { bytes := [0xDD#8, 0xEB#8],
      before := fun c => { c with d := 0x11#8, e := 0x11#8, h := 0x22#8, l := 0x22#8, ix := 0x3333#16 },
      after := fun c => { c with d := 0x22#8, e := 0x22#8, h := 0x11#8, l := 0x11#8 }, pc := 0x8002#16,
      t := 8, r := 2 },
   { bytes := [0x08#8], before := fun c => { c with a := 0x12#8, f := 0x34#8, aAlt := 0x56#8, fAlt := 0x78#8 },
      after := fun c => { c with a := 0x56#8, f := 0x78#8, aAlt := 0x12#8, fAlt := 0x34#8 }, pc := 0x8001#16,
      t := 4, r := 1 },
   { bytes := [0xD9#8],
      before := fun c => { c with b := 0x01#8, c := 0x02#8, d := 0x03#8, e := 0x04#8, h := 0x05#8, l := 0x06#8, bAlt := 0x11#8, cAlt := 0x12#8, dAlt := 0x13#8, eAlt := 0x14#8, hAlt := 0x15#8, lAlt := 0x16#8 },
      after := fun c => { c with b := 0x11#8, c := 0x12#8, d := 0x13#8, e := 0x14#8, h := 0x15#8, l := 0x16#8, bAlt := 0x01#8, cAlt := 0x02#8, dAlt := 0x03#8, eAlt := 0x04#8, hAlt := 0x05#8, lAlt := 0x06#8 },
      pc := 0x8001#16, t := 4, r := 1 },
   { bytes := [0xE3#8], before := fun c => { c with h := 0x12#8, l := 0x34#8, sp := 0x9000#16 },
      mem := [(0x9000, 0x78#8), (0x9001, 0x56#8)], after := fun c => { c with h := 0x56#8, l := 0x78#8 },
      pc := 0x8001#16, stored := [(0x9000, 0x34#8), (0x9001, 0x12#8)], t := 19, r := 1 },
   { bytes := [0xFD#8, 0xE3#8],
      before := fun c => { c with iy := 0x1234#16, sp := 0x9000#16, h := 0x00#8, l := 0x00#8 },
      mem := [(0x9000, 0x78#8), (0x9001, 0x56#8)], after := fun c => { c with iy := 0x5678#16 },
      pc := 0x8002#16, stored := [(0x9000, 0x34#8), (0x9001, 0x12#8)], t := 23, r := 2 }]

theorem test_vectors_load16_2 : vectors_load16_2.all Vec.ok = true := by decide +kernel

/-- V3 of spec/95_test_vectors.md: 8-bit arithmetic and logic. -/
def vectors_alu8_1 : List Vec :=
  [{ bytes := [0xC6#8, 0x01#8], before := fun c => { c with a := 0x7F#8, f := 0x00#8 },
      after := fun c => { c with a := 0x80#8, f := 0x94#8 }, pc := 0x8002#16, t := 7, r := 1 },
   { bytes := [0xC6#8, 0x01#8], before := fun c => { c with a := 0xFF#8, f := 0x00#8 },
      after := fun c => { c with a := 0x00#8, f := 0x51#8 }, pc := 0x8002#16, t := 7, r := 1 },
   { bytes := [0x87#8], before := fun c => { c with a := 0x80#8, f := 0x00#8 },
      after := fun c => { c with a := 0x00#8, f := 0x45#8 }, pc := 0x8001#16, t := 4, r := 1 },
   { bytes := [0xCE#8, 0x0F#8], before := fun c => { c with a := 0x00#8, f := 0x01#8 },
      after := fun c => { c with a := 0x10#8, f := 0x10#8 }, pc := 0x8002#16, t := 7, r := 1 },
   { bytes := [0x88#8], before := fun c => { c with a := 0xFF#8, b := 0x00#8, f := 0x01#8 },
      after := fun c => { c with a := 0x00#8, f := 0x51#8 }, pc := 0x8001#16, t := 4, r := 1 },
   { bytes := [0xD6#8, 0x01#8], before := fun c => { c with a := 0x00#8, f := 0x00#8 },
      after := fun c => { c with a := 0xFF#8, f := 0xBB#8 }, pc := 0x8002#16, t := 7, r := 1 },
   { bytes := [0xD6#8, 0x01#8], before := fun c => { c with a := 0x80#8, f := 0x00#8 },
      after := fun c => { c with a := 0x7F#8, f := 0x3E#8 }, pc := 0x8002#16, t := 7, r := 1 },
   { bytes := [0x97#8], before := fun c => { c with a := 0x5A#8, f := 0xFF#8 },
      after := fun c => { c with a := 0x00#8, f := 0x42#8 }, pc := 0x8001#16, t := 4, r := 1 },
   { bytes := [0xDE#8, 0xFF#8], before := fun c => { c with a := 0x00#8, f := 0x01#8 },
      after := fun c => { c with f := 0x53#8 }, pc := 0x8002#16, t := 7, r := 1 },
   { bytes := [0xE6#8, 0x0F#8], before := fun c => { c with a := 0xF8#8, f := 0xFF#8 },
      after := fun c => { c with a := 0x08#8, f := 0x18#8 }, pc := 0x8002#16, t := 7, r := 1 },
   { bytes := [0xA7#8], before := fun c => { c with a := 0x00#8, f := 0x00#8 },
      after := fun c => { c with f := 0x54#8 }, pc := 0x8001#16, t := 4, r := 1 },
   { bytes := [0xAF#8], before := fun c => { c with a := 0x5A#8, f := 0xFF#8 },
      after := fun c => { c with a := 0x00#8, f := 0x44#8 }, pc := 0x8001#16, t := 4, r := 1 },
   { bytes := [0xF6#8, 0x28#8], before := fun c => { c with a := 0x00#8, f := 0xFF#8 },
      after := fun c => { c with a := 0x28#8, f := 0x2C#8 }, pc := 0x8002#16, t := 7, r := 1 },
   { bytes := [0xFE#8, 0x28#8], before := fun c => { c with a := 0x00#8, f := 0x00#8 },
      after := fun c => { c with f := 0xBB#8 }, pc := 0x8002#16, t := 7, r := 1 },
   { bytes := [0xFE#8, 0x28#8], before := fun c => { c with a := 0x28#8, f := 0x00#8 },
      after := fun c => { c with f := 0x6A#8 }, pc := 0x8002#16, t := 7, r := 1 },
   { bytes := [0xBE#8], before := fun c => { c with a := 0x10#8, h := 0x90#8, l := 0x00#8, f := 0x00#8 },
      mem := [(0x9000, 0x20#8)], after := fun c => { c with f := 0xA3#8 }, pc := 0x8001#16, t := 7, r := 1 }]

theorem test_vectors_alu8_1 : vectors_alu8_1.all Vec.ok = true := by decide +kernel

/-- V3 of spec/95_test_vectors.md: 8-bit arithmetic and logic. -/
def vectors_alu8_2 : List Vec :=
  [{ bytes := [0xDD#8, 0x86#8, 0xFE#8], before := fun c => { c with a := 0x01#8, ix := 0x9002#16, f := 0x00#8 },
      mem := [(0x9000, 0x0F#8)], after := fun c => { c with a := 0x10#8, f := 0x10#8 }, pc := 0x8003#16,
      t := 19, r := 2 },
   { bytes := [0xDD#8, 0x94#8], before := fun c => { c with a := 0x10#8, ix := 0x10FF#16, f := 0x00#8 },
      after := fun c => { c with a := 0x00#8, f := 0x42#8 }, pc := 0x8002#16, t := 8, r := 2 },
   { bytes := [0xFD#8, 0xAD#8], before := fun c => { c with a := 0xFF#8, iy := 0x00FF#16, f := 0x00#8 },
      after := fun c => { c with a := 0x00#8, f := 0x44#8 }, pc := 0x8002#16, t := 8, r := 2 },
   { bytes := [0xDD#8, 0xC6#8, 0x01#8], before := fun c => { c with a := 0x01#8, f := 0x00#8 },
      after := fun c => { c with a := 0x02#8 }, pc := 0x8003#16, t := 11, r := 2 },
   { bytes := [0x3C#8], before := fun c => { c with a := 0x7F#8, f := 0x01#8 },
      after := fun c => { c with a := 0x80#8, f := 0x95#8 }, pc := 0x8001#16, t := 4, r := 1 },
   { bytes := [0x04#8], before := fun c => { c with b := 0xFF#8, f := 0x00#8 },
      after := fun c => { c with f := 0x50#8, b := 0x00#8 }, pc := 0x8001#16, t := 4, r := 1 },
   { bytes := [0x34#8], before := fun c => { c with h := 0x90#8, l := 0x00#8, f := 0x00#8 },
      mem := [(0x9000, 0x0F#8)], after := fun c => { c with f := 0x10#8 }, pc := 0x8001#16,
      stored := [(0x9000, 0x10#8)], t := 11, r := 1 },
   { bytes := [0x34#8], before := fun c => { c with h := 0x00#8, l := 0x00#8, f := 0x00#8 },
      mem := [(0x0000, 0xFF#8)], after := fun c => { c with f := 0x50#8 }, pc := 0x8001#16, t := 11, r := 1 },
   { bytes := [0xFD#8, 0x34#8, 0x00#8], before := fun c => { c with iy := 0x9000#16, f := 0x00#8 },
      mem := [(0x9000, 0x7F#8)], after := fun c => { c with f := 0x94#8 }, pc := 0x8003#16,
      stored := [(0x9000, 0x80#8)], t := 23, r := 2 },
   { bytes := [0xDD#8, 0x2C#8], before := fun c => { c with ix := 0x12FF#16, f := 0x00#8 },
      after := fun c => { c with f := 0x50#8, ix := 0x1200#16 }, pc := 0x8002#16, t := 8, r := 2 },
   { bytes := [0x3D#8], before := fun c => { c with a := 0x80#8, f := 0x00#8 },
      after := fun c => { c with a := 0x7F#8, f := 0x3E#8 }, pc := 0x8001#16, t := 4, r := 1 },
   { bytes := [0x0D#8], before := fun c => { c with c := 0x00#8, f := 0x01#8 },
      after := fun c => { c with f := 0xBB#8, c := 0xFF#8 }, pc := 0x8001#16, t := 4, r := 1 },
   { bytes := [0x05#8], before := fun c => { c with b := 0x01#8, f := 0x00#8 },
      after := fun c => { c with f := 0x42#8, b := 0x00#8 }, pc := 0x8001#16, t := 4, r := 1 },
   { bytes := [0x35#8], before := fun c => { c with h := 0x90#8, l := 0x00#8, f := 0x00#8 },
      mem := [(0x9000, 0x01#8)], after := fun c => { c with f := 0x42#8 }, pc := 0x8001#16,
      stored := [(0x9000, 0x00#8)], t := 11, r := 1 },
   { bytes := [0xDD#8, 0x35#8, 0x01#8], before := fun c => { c with ix := 0x9000#16, f := 0x00#8 },
      mem := [(0x9001, 0x10#8)], after := fun c => { c with f := 0x1A#8 }, pc := 0x8003#16,
      stored := [(0x9001, 0x0F#8)], t := 23, r := 2 },
   { bytes := [0xFD#8, 0x25#8], before := fun c => { c with iy := 0x0100#16, f := 0x01#8 },
      after := fun c => { c with f := 0x43#8, iy := 0x0000#16 }, pc := 0x8002#16, t := 8, r := 2 }]

theorem test_vectors_alu8_2 : vectors_alu8_2.all Vec.ok = true := by decide +kernel

/-- V3 of spec/95_test_vectors.md: 8-bit arithmetic and logic. -/
def vectors_alu8_3 : List Vec :=
  [{ bytes := [0x27#8], before := fun c => { c with a := 0x3C#8, f := 0x00#8 },
      after := fun c => { c with a := 0x42#8, f := 0x14#8 }, pc := 0x8001#16, t := 4, r := 1 },
   { bytes := [0x27#8], before := fun c => { c with a := 0x9A#8, f := 0x00#8 },
      after := fun c => { c with a := 0x00#8, f := 0x55#8 }, pc := 0x8001#16, t := 4, r := 1 },
   { bytes := [0x27#8], before := fun c => { c with a := 0x0F#8, f := 0x12#8 },
      after := fun c => { c with a := 0x09#8, f := 0x0E#8 }, pc := 0x8001#16, t := 4, r := 1 },
   { bytes := [0x27#8], before := fun c => { c with a := 0x00#8, f := 0x01#8 },
      after := fun c => { c with a := 0x60#8, f := 0x25#8 }, pc := 0x8001#16, t := 4, r := 1 },
   { bytes := [0x2F#8], before := fun c => { c with a := 0x5A#8, f := 0xC5#8 },
      after := fun c => { c with a := 0xA5#8, f := 0xF7#8 }, pc := 0x8001#16, t := 4, r := 1 },
   { bytes := [0xED#8, 0x44#8], before := fun c => { c with a := 0x01#8, f := 0x00#8 },
      after := fun c => { c with a := 0xFF#8, f := 0xBB#8 }, pc := 0x8002#16, t := 8, r := 2 },
   { bytes := [0xED#8, 0x44#8], before := fun c => { c with a := 0x80#8, f := 0x00#8 },
      after := fun c => { c with f := 0x87#8 }, pc := 0x8002#16, t := 8, r := 2 },
   { bytes := [0xED#8, 0x44#8], before := fun c => { c with a := 0x00#8, f := 0xFF#8 },
      after := fun c => { c with f := 0x42#8 }, pc := 0x8002#16, t := 8, r := 2 },
   { bytes := [0xED#8, 0x7C#8], before := fun c => { c with a := 0x01#8, f := 0x00#8 },
      after := fun c => { c with a := 0xFF#8, f := 0xBB#8 }, pc := 0x8002#16, t := 8, r := 2 },
   { bytes := [0x3F#8], before := fun c => { c with a := 0x00#8, f := 0x01#8 },
      after := fun c => { c with f := 0x10#8 }, pc := 0x8001#16, t := 4, r := 1 },
   { bytes := [0x3F#8], before := fun c => { c with a := 0xFF#8, f := 0x00#8 },
      after := fun c => { c with f := 0x29#8 }, pc := 0x8001#16, t := 4, r := 1 },
   { bytes := [0x37#8], before := fun c => { c with a := 0x28#8, f := 0xD6#8 },
      after := fun c => { c with f := 0xED#8 }, pc := 0x8001#16, t := 4, r := 1 },
   { bytes := [0x37#8], before := fun c => { c with a := 0x00#8, f := 0xFF#8 },
      after := fun c => { c with f := 0xC5#8 }, pc := 0x8001#16, t := 4, r := 1 }]

theorem test_vectors_alu8_3 : vectors_alu8_3.all Vec.ok = true := by decide +kernel

/-- V4 of spec/95_test_vectors.md: 16-bit arithmetic. -/
def vectors_alu16 : List Vec :=
  [{ bytes := [0x09#8],
      before := fun c => { c with h := 0x0F#8, l := 0xFF#8, b := 0x00#8, c := 0x01#8, f := 0xC4#8 },
      after := fun c => { c with f := 0xD4#8, h := 0x10#8, l := 0x00#8 }, pc := 0x8001#16, t := 11, r := 1 },
   { bytes := [0x29#8], before := fun c => { c with h := 0x80#8, l := 0x00#8, f := 0x00#8 },
      after := fun c => { c with f := 0x01#8, h := 0x00#8 }, pc := 0x8001#16, t := 11, r := 1 },
   { bytes := [0x39#8], before := fun c => { c with h := 0x12#8, l := 0x34#8, sp := 0x2800#16, f := 0xFF#8 },
      after := fun c => { c with f := 0xEC#8, h := 0x3A#8 }, pc := 0x8001#16, t := 11, r := 1 },
   { bytes := [0xED#8, 0x4A#8],
      before := fun c => { c with h := 0xFF#8, l := 0xFF#8, b := 0x00#8, c := 0x00#8, f := 0x01#8 },
      after := fun c => { c with f := 0x51#8, h := 0x00#8, l := 0x00#8 }, pc := 0x8002#16, t := 15, r := 2 },
   { bytes := [0xED#8, 0x5A#8],
      before := fun c => { c with h := 0x7F#8, l := 0xFF#8, d := 0x00#8, e := 0x01#8, f := 0x00#8 },
      after := fun c => { c with f := 0x94#8, h := 0x80#8, l := 0x00#8 }, pc := 0x8002#16, t := 15, r := 2 },
   { bytes := [0xED#8, 0x6A#8], before := fun c => { c with h := 0x40#8, l := 0x00#8, f := 0x01#8 },
      after := fun c => { c with f := 0x84#8, h := 0x80#8, l := 0x01#8 }, pc := 0x8002#16, t := 15, r := 2 },
   { bytes := [0xED#8, 0x52#8],
      before := fun c => { c with h := 0x12#8, l := 0x34#8, d := 0x12#8, e := 0x34#8, f := 0x00#8 },
      after := fun c => { c with f := 0x42#8, h := 0x00#8, l := 0x00#8 }, pc := 0x8002#16, t := 15, r := 2 },
   { bytes := [0xED#8, 0x42#8],
      before := fun c => { c with h := 0x00#8, l := 0x00#8, b := 0x00#8, c := 0x01#8, f := 0x00#8 },
      after := fun c => { c with f := 0xBB#8, h := 0xFF#8, l := 0xFF#8 }, pc := 0x8002#16, t := 15, r := 2 },
   { bytes := [0xED#8, 0x72#8],
      before := fun c => { c with h := 0x80#8, l := 0x00#8, sp := 0x0001#16, f := 0x00#8 },
      after := fun c => { c with f := 0x3E#8, h := 0x7F#8, l := 0xFF#8 }, pc := 0x8002#16, t := 15, r := 2 },
   { bytes := [0xED#8, 0x42#8],
      before := fun c => { c with h := 0x10#8, l := 0x00#8, b := 0x0F#8, c := 0xFF#8, f := 0x01#8 },
      after := fun c => { c with f := 0x52#8, h := 0x00#8 }, pc := 0x8002#16, t := 15, r := 2 },
   { bytes := [0xDD#8, 0x29#8],
      before := fun c => { c with ix := 0x4000#16, h := 0x11#8, l := 0x11#8, f := 0x00#8 },
      after := fun c => { c with ix := 0x8000#16 }, pc := 0x8002#16, t := 15, r := 2 },
   { bytes := [0xFD#8, 0x19#8],
      before := fun c => { c with iy := 0xFFFF#16, d := 0x00#8, e := 0x01#8, f := 0x00#8 },
      after := fun c => { c with f := 0x11#8, iy := 0x0000#16 }, pc := 0x8002#16, t := 15, r := 2 },
   { bytes := [0x03#8], before := fun c => { c with b := 0xFF#8, c := 0xFF#8, f := 0xAA#8 },
      after := fun c => { c with b := 0x00#8, c := 0x00#8 }, pc := 0x8001#16, t := 6, r := 1 },
   { bytes := [0x3B#8], before := fun c => { c with sp := 0x0000#16, f := 0x55#8 },
      after := fun c => { c with sp := 0xFFFF#16 }, pc := 0x8001#16, t := 6, r := 1 },
   { bytes := [0xDD#8, 0x23#8], before := fun c => { c with ix := 0xFFFF#16 },
      after := fun c => { c with ix := 0x0000#16 }, pc := 0x8002#16, t := 10, r := 2 },
   { bytes := [0xFD#8, 0x2B#8], before := fun c => { c with iy := 0x0000#16 },
      after := fun c => { c with iy := 0xFFFF#16 }, pc := 0x8002#16, t := 10, r := 2 }]

theorem test_vectors_alu16 : vectors_alu16.all Vec.ok = true := by decide +kernel

/-- V5 of spec/95_test_vectors.md: rotates, shifts, bits. -/
def vectors_rotate_bit_1 : List Vec :=
  [{ bytes := [0x07#8], before := fun c => { c with a := 0x81#8, f := 0xC4#8 },
      after := fun c => { c with a := 0x03#8, f := 0xC5#8 }, pc := 0x8001#16, t := 4, r := 1 },
   { bytes := [0x17#8], before := fun c => { c with a := 0x80#8, f := 0x00#8 },
      after := fun c => { c with a := 0x00#8, f := 0x01#8 }, pc := 0x8001#16, t := 4, r := 1 },
   { bytes := [0x0F#8], before := fun c => { c with a := 0x01#8, f := 0x00#8 },
      after := fun c => { c with a := 0x80#8, f := 0x01#8 }, pc := 0x8001#16, t := 4, r := 1 },
   { bytes := [0x1F#8], before := fun c => { c with a := 0x00#8, f := 0x01#8 },
      after := fun c => { c with a := 0x80#8, f := 0x00#8 }, pc := 0x8001#16, t := 4, r := 1 },
   { bytes := [0xCB#8, 0x00#8], before := fun c => { c with b := 0x80#8, f := 0x00#8 },
      after := fun c => { c with f := 0x01#8, b := 0x01#8 }, pc := 0x8002#16, t := 8, r := 2 },
   { bytes := [0xCB#8, 0x0E#8], before := fun c => { c with h := 0x90#8, l := 0x00#8, f := 0x00#8 },
      mem := [(0x9000, 0x01#8)], after := fun c => { c with f := 0x81#8 }, pc := 0x8002#16,
      stored := [(0x9000, 0x80#8)], t := 15, r := 2 },
   { bytes := [0xCB#8, 0x11#8], before := fun c => { c with c := 0x80#8, f := 0x00#8 },
      after := fun c => { c with f := 0x45#8, c := 0x00#8 }, pc := 0x8002#16, t := 8, r := 2 },
   { bytes := [0xCB#8, 0x1A#8], before := fun c => { c with d := 0x01#8, f := 0x01#8 },
      after := fun c => { c with f := 0x81#8, d := 0x80#8 }, pc := 0x8002#16, t := 8, r := 2 },
   { bytes := [0xCB#8, 0x23#8], before := fun c => { c with e := 0xC0#8, f := 0x00#8 },
      after := fun c => { c with f := 0x81#8, e := 0x80#8 }, pc := 0x8002#16, t := 8, r := 2 },
   { bytes := [0xCB#8, 0x2C#8], before := fun c => { c with h := 0x81#8, l := 0x00#8, f := 0x00#8 },
      after := fun c => { c with f := 0x85#8, h := 0xC0#8 }, pc := 0x8002#16, t := 8, r := 2 },
   { bytes := [0xCB#8, 0x37#8], before := fun c => { c with a := 0x80#8, f := 0x00#8 },
      after := fun c => { c with a := 0x01#8, f := 0x01#8 }, pc := 0x8002#16, t := 8, r := 2 },
   { bytes := [0xCB#8, 0x36#8], before := fun c => { c with h := 0x90#8, l := 0x00#8, f := 0x00#8 },
      mem := [(0x9000, 0x00#8)], pc := 0x8002#16, stored := [(0x9000, 0x01#8)], t := 15, r := 2 },
   { bytes := [0xCB#8, 0x3D#8], before := fun c => { c with h := 0x00#8, l := 0x01#8, f := 0x00#8 },
      after := fun c => { c with f := 0x45#8, l := 0x00#8 }, pc := 0x8002#16, t := 8, r := 2 },
   { bytes := [0xDD#8, 0xCB#8, 0x02#8, 0x06#8], before := fun c => { c with ix := 0x9000#16, f := 0x00#8 },
      mem := [(0x9002, 0x81#8)], after := fun c => { c with f := 0x05#8 }, pc := 0x8004#16,
      stored := [(0x9002, 0x03#8)], t := 23, r := 2 },
   { bytes := [0xDD#8, 0xCB#8, 0x02#8, 0x00#8],
      before := fun c => { c with ix := 0x9000#16, b := 0x00#8, f := 0x00#8 }, mem := [(0x9002, 0x81#8)],
      after := fun c => { c with f := 0x05#8, b := 0x03#8 }, pc := 0x8004#16, stored := [(0x9002, 0x03#8)],
      t := 23, r := 2 },
   { bytes := [0xFD#8, 0xCB#8, 0xFF#8, 0x34#8],
      before := fun c => { c with iy := 0x9001#16, h := 0x00#8, l := 0x00#8, f := 0x00#8 },
      mem := [(0x9000, 0x40#8)], after := fun c => { c with f := 0x84#8, h := 0x81#8 }, pc := 0x8004#16,
      stored := [(0x9000, 0x81#8)], t := 23, r := 2 }]

theorem test_vectors_rotate_bit_1 : vectors_rotate_bit_1.all Vec.ok = true := by decide +kernel

/-- V5 of spec/95_test_vectors.md: rotates, shifts, bits. -/
def vectors_rotate_bit_2 : List Vec :=
  [{ bytes := [0xED#8, 0x6F#8],
      before := fun c => { c with a := 0x12#8, h := 0x90#8, l := 0x00#8, f := 0x01#8 },
      mem := [(0x9000, 0x34#8)], after := fun c => { c with a := 0x13#8 }, pc := 0x8002#16,
      stored := [(0x9000, 0x42#8)], t := 18, r := 2 },
   { bytes := [0xED#8, 0x67#8],
      before := fun c => { c with a := 0x12#8, h := 0x90#8, l := 0x00#8, f := 0x00#8 },
      mem := [(0x9000, 0x34#8)], after := fun c => { c with a := 0x14#8, f := 0x04#8 }, pc := 0x8002#16,
      stored := [(0x9000, 0x23#8)], t := 18, r := 2 },
   { bytes := [0xED#8, 0x6F#8],
      before := fun c => { c with a := 0x12#8, h := 0x00#8, l := 0x00#8, f := 0x00#8 },
      mem := [(0x0000, 0x34#8)], after := fun c => { c with a := 0x13#8 }, pc := 0x8002#16, t := 18, r := 2 },
   { bytes := [0xCB#8, 0x7F#8], before := fun c => { c with a := 0x80#8, f := 0x01#8 },
      after := fun c => { c with f := 0x91#8 }, pc := 0x8002#16, t := 8, r := 2 },
   { bytes := [0xCB#8, 0x40#8], before := fun c => { c with b := 0xFE#8, f := 0x00#8 },
      after := fun c => { c with f := 0x7C#8 }, pc := 0x8002#16, t := 8, r := 2 },
   { bytes := [0xCB#8, 0x6E#8], before := fun c => { c with h := 0x90#8, l := 0x00#8, f := 0x00#8 },
      mem := [(0x9000, 0x28#8)], after := fun c => { c with f := 0x38#8 }, pc := 0x8002#16, t := 12, r := 2 },
   { bytes := [0xDD#8, 0xCB#8, 0x00#8, 0x5E#8], before := fun c => { c with ix := 0x2890#16, f := 0x00#8 },
      mem := [(0x2890, 0x08#8)], after := fun c => { c with f := 0x38#8 }, pc := 0x8004#16, t := 20, r := 2 },
   { bytes := [0xFD#8, 0xCB#8, 0x01#8, 0x40#8],
      before := fun c => { c with iy := 0x9000#16, b := 0x77#8, f := 0x01#8 }, mem := [(0x9001, 0x00#8)],
      after := fun c => { c with f := 0x55#8 }, pc := 0x8004#16, t := 20, r := 2 },
   { bytes := [0xCB#8, 0xC7#8], before := fun c => { c with a := 0x00#8, f := 0xD7#8 },
      after := fun c => { c with a := 0x01#8 }, pc := 0x8002#16, t := 8, r := 2 },
   { bytes := [0xCB#8, 0xBE#8], before := fun c => { c with h := 0x90#8, l := 0x00#8, f := 0x00#8 },
      mem := [(0x9000, 0xFF#8)], pc := 0x8002#16, stored := [(0x9000, 0x7F#8)], t := 15, r := 2 },
   { bytes := [0xDD#8, 0xCB#8, 0x00#8, 0xFF#8], before := fun c => { c with ix := 0x9000#16, a := 0x00#8 },
      mem := [(0x9000, 0x01#8)], after := fun c => { c with a := 0x81#8 }, pc := 0x8004#16,
      stored := [(0x9000, 0x81#8)], t := 23, r := 2 },
   { bytes := [0xFD#8, 0xCB#8, 0x80#8, 0x86#8], before := fun c => { c with iy := 0x9080#16 },
      mem := [(0x9000, 0xFF#8)], pc := 0x8004#16, stored := [(0x9000, 0xFE#8)], t := 23, r := 2 }]

theorem test_vectors_rotate_bit_2 : vectors_rotate_bit_2.all Vec.ok = true := by decide +kernel

/-- V6 of spec/95_test_vectors.md: jumps, calls, returns. -/
def vectors_control_1 : List Vec :=
  [{ bytes := [0xC3#8, 0x34#8, 0x12#8], pc := 0x1234#16, t := 10, r := 1 },
   { bytes := [0xCA#8, 0x00#8, 0x90#8], before := fun c => { c with f := 0x40#8 }, pc := 0x9000#16, t := 10,
      r := 1 },
   { bytes := [0xCA#8, 0x00#8, 0x90#8], before := fun c => { c with f := 0x00#8 }, pc := 0x8003#16, t := 10,
      r := 1 },
   { bytes := [0xEA#8, 0x00#8, 0x90#8], before := fun c => { c with f := 0x04#8 }, pc := 0x9000#16, t := 10,
      r := 1 },
   { bytes := [0x18#8, 0x02#8], pc := 0x8004#16, t := 12, r := 1 },
   { bytes := [0x18#8, 0xFE#8], pc := 0x8000#16, t := 12, r := 1 },
   { bytes := [0x18#8, 0x80#8], pc := 0x7F82#16, t := 12, r := 1 },
   { bytes := [0x18#8, 0x05#8], at_ := 0xFFFE#16, pc := 0x0005#16, t := 12, r := 1 },
   { bytes := [0x38#8, 0x7F#8], before := fun c => { c with f := 0x01#8 }, pc := 0x8081#16, t := 12, r := 1 },
   { bytes := [0x30#8, 0x10#8], before := fun c => { c with f := 0x01#8 }, pc := 0x8002#16, t := 7, r := 1 },
   { bytes := [0x28#8, 0x10#8], before := fun c => { c with f := 0x40#8 }, pc := 0x8012#16, t := 12, r := 1 },
   { bytes := [0x20#8, 0x10#8], before := fun c => { c with f := 0x00#8 }, pc := 0x8012#16, t := 12, r := 1 },
   { bytes := [0x20#8, 0x10#8], before := fun c => { c with f := 0x40#8 }, pc := 0x8002#16, t := 7, r := 1 },
   { bytes := [0xE9#8], before := fun c => { c with h := 0x12#8, l := 0x34#8 }, pc := 0x1234#16, t := 4, r := 1 },
   { bytes := [0xDD#8, 0xE9#8], before := fun c => { c with ix := 0x4321#16, h := 0x12#8, l := 0x34#8 },
      pc := 0x4321#16, t := 8, r := 2 },
   { bytes := [0x10#8, 0xFE#8], before := fun c => { c with b := 0x02#8, f := 0xFF#8 },
      after := fun c => { c with b := 0x01#8 }, pc := 0x8000#16, t := 13, r := 1 }]

theorem test_vectors_control_1 : vectors_control_1.all Vec.ok = true := by decide +kernel

/-- V6 of spec/95_test_vectors.md: jumps, calls, returns. -/
def vectors_control_2 : List Vec :=
  [{ bytes := [0x10#8, 0xFE#8], before := fun c => { c with b := 0x01#8, f := 0xFF#8 },
      after := fun c => { c with b := 0x00#8 }, pc := 0x8002#16, t := 8, r := 1 },
   { bytes := [0x10#8, 0xFE#8], before := fun c => { c with b := 0x00#8 },
      after := fun c => { c with b := 0xFF#8 }, pc := 0x8000#16, t := 13, r := 1 },
   { bytes := [0xCD#8, 0x00#8, 0x90#8], before := fun c => { c with sp := 0xFF00#16 },
      after := fun c => { c with sp := 0xFEFE#16 }, pc := 0x9000#16,
      stored := [(0xFEFE, 0x03#8), (0xFEFF, 0x80#8)], t := 17, r := 1 },
   { bytes := [0xC4#8, 0x00#8, 0x90#8], before := fun c => { c with sp := 0xFF00#16, f := 0x40#8 },
      pc := 0x8003#16, t := 10, r := 1 },
   { bytes := [0xDC#8, 0x00#8, 0x90#8], before := fun c => { c with sp := 0xFF00#16, f := 0x01#8 },
      after := fun c => { c with sp := 0xFEFE#16 }, pc := 0x9000#16,
      stored := [(0xFEFE, 0x03#8), (0xFEFF, 0x80#8)], t := 17, r := 1 },
   { bytes := [0xC9#8], before := fun c => { c with sp := 0xFEFE#16 },
      mem := [(0xFEFE, 0x03#8), (0xFEFF, 0x80#8)], after := fun c => { c with sp := 0xFF00#16 },
      pc := 0x8003#16, t := 10, r := 1 },
   { bytes := [0xC8#8], before := fun c => { c with sp := 0xFEFE#16, f := 0x00#8 },
      mem := [(0xFEFE, 0x03#8), (0xFEFF, 0x80#8)], pc := 0x8001#16, t := 5, r := 1 },
   { bytes := [0xD0#8], before := fun c => { c with sp := 0xFEFE#16, f := 0x00#8 },
      mem := [(0xFEFE, 0x03#8), (0xFEFF, 0x80#8)], after := fun c => { c with sp := 0xFF00#16 },
      pc := 0x8003#16, t := 11, r := 1 },
   { bytes := [0xED#8, 0x4D#8], before := fun c => { c with sp := 0xFEFE#16, iff1 := false, iff2 := true },
      mem := [(0xFEFE, 0x03#8), (0xFEFF, 0x80#8)],
      after := fun c => { c with sp := 0xFF00#16, iff1 := true, iff2 := true }, pc := 0x8003#16, t := 14,
      r := 2 },
   { bytes := [0xED#8, 0x45#8], before := fun c => { c with sp := 0xFEFE#16, iff1 := false, iff2 := true },
      mem := [(0xFEFE, 0x03#8), (0xFEFF, 0x80#8)],
      after := fun c => { c with sp := 0xFF00#16, iff1 := true, iff2 := true }, pc := 0x8003#16, t := 14,
      r := 2 },
   { bytes := [0xED#8, 0x7D#8], before := fun c => { c with sp := 0xFEFE#16, iff1 := true, iff2 := false },
      mem := [(0xFEFE, 0x03#8), (0xFEFF, 0x80#8)],
      after := fun c => { c with sp := 0xFF00#16, iff1 := false, iff2 := false }, pc := 0x8003#16, t := 14,
      r := 2 },
   { bytes := [0xFF#8], before := fun c => { c with sp := 0xFF00#16 },
      after := fun c => { c with sp := 0xFEFE#16 }, pc := 0x0038#16,
      stored := [(0xFEFE, 0x01#8), (0xFEFF, 0x80#8)], t := 11, r := 1 },
   { bytes := [0xC7#8], before := fun c => { c with sp := 0x0000#16 },
      after := fun c => { c with sp := 0xFFFE#16 }, pc := 0x0000#16,
      stored := [(0xFFFE, 0x01#8), (0xFFFF, 0x80#8)], t := 11, r := 1 }]

theorem test_vectors_control_2 : vectors_control_2.all Vec.ok = true := by decide +kernel

/-- V7 of spec/95_test_vectors.md: block instructions. -/
def vectors_block_1 : List Vec :=
  [{ bytes := [0xED#8, 0xA0#8],
      before := fun c => { c with a := 0x00#8, h := 0x90#8, l := 0x00#8, d := 0xA0#8, e := 0x00#8, b := 0x00#8, c := 0x02#8, f := 0xFF#8 },
      mem := [(0x9000, 0x28#8)],
      after := fun c => { c with f := 0xCD#8, c := 0x01#8, e := 0x01#8, l := 0x01#8 }, pc := 0x8002#16,
      stored := [(0xA000, 0x28#8)], t := 16, r := 2 },
   { bytes := [0xED#8, 0xA0#8],
      before := fun c => { c with a := 0x01#8, h := 0x90#8, l := 0x00#8, d := 0xA0#8, e := 0x00#8, b := 0x00#8, c := 0x01#8, f := 0x00#8 },
      mem := [(0x9000, 0x01#8)],
      after := fun c => { c with f := 0x20#8, c := 0x00#8, e := 0x01#8, l := 0x01#8 }, pc := 0x8002#16,
      stored := [(0xA000, 0x01#8)], t := 16, r := 2 },
   { bytes := [0xED#8, 0xB0#8],
      before := fun c => { c with a := 0x00#8, h := 0x90#8, l := 0x00#8, d := 0xA0#8, e := 0x00#8, b := 0x00#8, c := 0x02#8, f := 0x00#8 },
      mem := [(0x9000, 0x00#8)],
      after := fun c => { c with f := 0x04#8, c := 0x01#8, e := 0x01#8, l := 0x01#8 }, pc := 0x8000#16,
      t := 21, r := 2 },
   { bytes := [0xED#8, 0xB0#8],
      before := fun c => { c with a := 0x00#8, h := 0x90#8, l := 0x00#8, d := 0xA0#8, e := 0x00#8, b := 0x00#8, c := 0x01#8, f := 0x00#8 },
      mem := [(0x9000, 0x00#8)], after := fun c => { c with c := 0x00#8, e := 0x01#8, l := 0x01#8 },
      pc := 0x8002#16, t := 16, r := 2 },
   { bytes := [0xED#8, 0xB0#8],
      before := fun c => { c with a := 0x00#8, h := 0x90#8, l := 0x00#8, d := 0x00#8, e := 0x00#8, b := 0x00#8, c := 0x02#8, f := 0x00#8 },
      mem := [(0x9000, 0x5A#8)],
      after := fun c => { c with f := 0x2C#8, c := 0x01#8, e := 0x01#8, l := 0x01#8 }, pc := 0x8000#16,
      t := 21, r := 2 },
   { bytes := [0xDD#8, 0xED#8, 0xB0#8],
      before := fun c => { c with a := 0x00#8, h := 0x90#8, l := 0x00#8, d := 0xA0#8, e := 0x00#8, b := 0x00#8, c := 0x02#8, f := 0x00#8 },
      mem := [(0x9000, 0x00#8)],
      after := fun c => { c with f := 0x04#8, c := 0x01#8, e := 0x01#8, l := 0x01#8 }, pc := 0x8001#16,
      t := 25, r := 3 },
   { bytes := [0xED#8, 0xA8#8],
      before := fun c => { c with a := 0x00#8, h := 0x90#8, l := 0x00#8, d := 0xA0#8, e := 0x00#8, b := 0x00#8, c := 0x00#8, f := 0x00#8 },
      mem := [(0x9000, 0x00#8)],
      after := fun c => { c with f := 0x04#8, b := 0xFF#8, c := 0xFF#8, d := 0x9F#8, e := 0xFF#8, h := 0x8F#8, l := 0xFF#8 },
      pc := 0x8002#16, t := 16, r := 2 },
   { bytes := [0xED#8, 0xB8#8],
      before := fun c => { c with a := 0x00#8, h := 0x90#8, l := 0x00#8, d := 0xA0#8, e := 0x00#8, b := 0x00#8, c := 0x02#8, f := 0x00#8 },
      mem := [(0x9000, 0x22#8)],
      after := fun c => { c with f := 0x24#8, c := 0x01#8, d := 0x9F#8, e := 0xFF#8, h := 0x8F#8, l := 0xFF#8 },
      pc := 0x8000#16, stored := [(0xA000, 0x22#8)], t := 21, r := 2 },
   { bytes := [0xED#8, 0xA1#8],
      before := fun c => { c with a := 0x3B#8, h := 0x90#8, l := 0x00#8, b := 0x00#8, c := 0x02#8, f := 0x01#8 },
      mem := [(0x9000, 0x3B#8)], after := fun c => { c with f := 0x47#8, c := 0x01#8, l := 0x01#8 },
      pc := 0x8002#16, t := 16, r := 2 },
   { bytes := [0xED#8, 0xA1#8],
      before := fun c => { c with a := 0x10#8, h := 0x90#8, l := 0x00#8, b := 0x00#8, c := 0x01#8, f := 0x00#8 },
      mem := [(0x9000, 0x01#8)], after := fun c => { c with f := 0x3A#8, c := 0x00#8, l := 0x01#8 },
      pc := 0x8002#16, t := 16, r := 2 },
   { bytes := [0xED#8, 0xB1#8],
      before := fun c => { c with a := 0x42#8, h := 0x90#8, l := 0x00#8, b := 0x00#8, c := 0x03#8, f := 0x00#8 },
      mem := [(0x9000, 0x00#8)], after := fun c => { c with f := 0x26#8, c := 0x02#8, l := 0x01#8 },
      pc := 0x8000#16, t := 21, r := 2 },
   { bytes := [0xED#8, 0xB1#8],
      before := fun c => { c with a := 0x42#8, h := 0x90#8, l := 0x00#8, b := 0x00#8, c := 0x03#8, f := 0x00#8 },
      mem := [(0x9000, 0x42#8)], after := fun c => { c with f := 0x46#8, c := 0x02#8, l := 0x01#8 },
      pc := 0x8002#16, t := 16, r := 2 },
   { bytes := [0xED#8, 0xB1#8],
      before := fun c => { c with a := 0x42#8, h := 0x90#8, l := 0x00#8, b := 0x00#8, c := 0x01#8, f := 0x00#8 },
      mem := [(0x9000, 0x00#8)], after := fun c => { c with f := 0x22#8, c := 0x00#8, l := 0x01#8 },
      pc := 0x8002#16, t := 16, r := 2 },
   { bytes := [0xED#8, 0xA9#8],
      before := fun c => { c with a := 0x00#8, h := 0x90#8, l := 0x00#8, b := 0x00#8, c := 0x05#8, f := 0x00#8 },
      mem := [(0x9000, 0xFF#8)],
      after := fun c => { c with f := 0x16#8, c := 0x04#8, h := 0x8F#8, l := 0xFF#8 }, pc := 0x8002#16,
      t := 16, r := 2 },
   { bytes := [0xED#8, 0xB9#8],
      before := fun c => { c with a := 0x42#8, h := 0x90#8, l := 0x00#8, b := 0x00#8, c := 0x03#8, f := 0x01#8 },
      mem := [(0x9000, 0x00#8)],
      after := fun c => { c with f := 0x27#8, c := 0x02#8, h := 0x8F#8, l := 0xFF#8 }, pc := 0x8000#16,
      t := 21, r := 2 },
   { bytes := [0xED#8, 0xA2#8],
      before := fun c => { c with b := 0x02#8, c := 0xFE#8, h := 0x90#8, l := 0x00#8, f := 0x01#8 },
      after := fun c => { c with b := 0x01#8, l := 0x01#8 }, pc := 0x8002#16, stored := [(0x9000, 0xFF#8)],
      anyF := true, t := 16, r := 2 }]

theorem test_vectors_block_1 : vectors_block_1.all Vec.ok = true := by decide +kernel

/-- V7 of spec/95_test_vectors.md: block instructions. -/
def vectors_block_2 : List Vec :=
  [{ bytes := [0xED#8, 0xA2#8],
      before := fun c => { c with b := 0x01#8, c := 0xFE#8, h := 0x90#8, l := 0x00#8, f := 0x00#8 },
      after := fun c => { c with b := 0x00#8, l := 0x01#8 }, pc := 0x8002#16, stored := [(0x9000, 0xFF#8)],
      anyF := true, t := 16, r := 2 },
   { bytes := [0xED#8, 0xB2#8],
      before := fun c => { c with b := 0x02#8, c := 0xFE#8, h := 0x90#8, l := 0x00#8, f := 0x00#8 },
      after := fun c => { c with b := 0x01#8, l := 0x01#8 }, pc := 0x8000#16, stored := [(0x9000, 0xFF#8)],
      anyF := true, t := 21, r := 2 },
   { bytes := [0xED#8, 0xB2#8],
      before := fun c => { c with b := 0x01#8, c := 0xFE#8, h := 0x90#8, l := 0x00#8, f := 0x00#8 },
      after := fun c => { c with b := 0x00#8, l := 0x01#8 }, pc := 0x8002#16, stored := [(0x9000, 0xFF#8)],
      anyF := true, t := 16, r := 2 },
   { bytes := [0xED#8, 0xAA#8],
      before := fun c => { c with b := 0x03#8, c := 0xFF#8, h := 0x90#8, l := 0x00#8, f := 0x00#8 },
      after := fun c => { c with b := 0x02#8, h := 0x8F#8, l := 0xFF#8 }, pc := 0x8002#16,
      stored := [(0x9000, 0xFF#8)], anyF := true, t := 16, r := 2 },
   { bytes := [0xED#8, 0xBA#8],
      before := fun c => { c with b := 0x01#8, c := 0xFF#8, h := 0x90#8, l := 0x00#8, f := 0x00#8 },
      after := fun c => { c with b := 0x00#8, h := 0x8F#8, l := 0xFF#8 }, pc := 0x8002#16,
      stored := [(0x9000, 0xFF#8)], anyF := true, t := 16, r := 2 },
   { bytes := [0xED#8, 0xA3#8],
      before := fun c => { c with b := 0x02#8, c := 0xFE#8, h := 0x90#8, l := 0x00#8, f := 0x00#8 },
      mem := [(0x9000, 0x17#8)], after := fun c => { c with b := 0x01#8, l := 0x01#8 }, pc := 0x8002#16,
      anyF := true, t := 16, r := 2 },
   { bytes := [0xED#8, 0xB3#8],
      before := fun c => { c with b := 0x02#8, c := 0xFE#8, h := 0x90#8, l := 0x00#8, f := 0x00#8 },
      mem := [(0x9000, 0x10#8)], after := fun c => { c with b := 0x01#8, l := 0x01#8 }, pc := 0x8000#16,
      anyF := true, t := 21, r := 2 },
   { bytes := [0xED#8, 0xAB#8],
      before := fun c => { c with b := 0x01#8, c := 0xFE#8, h := 0x90#8, l := 0x00#8, f := 0x01#8 },
      mem := [(0x9000, 0x02#8)], after := fun c => { c with b := 0x00#8, h := 0x8F#8, l := 0xFF#8 },
      pc := 0x8002#16, anyF := true, t := 16, r := 2 },
   { bytes := [0xED#8, 0xBB#8],
      before := fun c => { c with b := 0x01#8, c := 0xFE#8, h := 0x90#8, l := 0x00#8, f := 0x00#8 },
      mem := [(0x9000, 0x07#8)], after := fun c => { c with b := 0x00#8, h := 0x8F#8, l := 0xFF#8 },
      pc := 0x8002#16, anyF := true, t := 16, r := 2 }]

theorem test_vectors_block_2 : vectors_block_2.all Vec.ok = true := by decide +kernel

/-- V8 of spec/95_test_vectors.md: ports and CPU control. -/
def vectors_io_control_1 : List Vec :=
  [{ bytes := [0xDB#8, 0xFE#8], before := fun c => { c with a := 0x00#8 },
      after := fun c => { c with a := 0xFF#8 }, pc := 0x8002#16, t := 11, r := 1 },
   { bytes := [0xDB#8, 0xFE#8], before := fun c => { c with a := 0x00#8 },
      outside := fun s => { s with tape := { s.tape with source := some (blocksWaveform .tap []), earLevel := false } },
      after := fun c => { c with a := 0xBF#8 }, pc := 0x8002#16, t := 11, r := 1 },
   { bytes := [0xDB#8, 0xFE#8], before := fun c => { c with a := 0xFE#8 },
      outside := fun s => { s with keys := Vector.set s.keys 0 0xFE#8 },
      after := fun c => { c with a := 0xFE#8 }, pc := 0x8002#16, t := 11, r := 1 },
   { bytes := [0xDB#8, 0xFE#8], before := fun c => { c with a := 0xFD#8 },
      outside := fun s => { s with keys := Vector.set s.keys 0 0xFE#8 },
      after := fun c => { c with a := 0xFF#8 }, pc := 0x8002#16, t := 11, r := 1 },
   { bytes := [0xDB#8, 0xFF#8], before := fun c => { c with a := 0x00#8 },
      after := fun c => { c with a := 0xFF#8 }, pc := 0x8002#16, t := 11, r := 1 },
   { bytes := [0xED#8, 0x40#8], before := fun c => { c with b := 0x00#8, c := 0xFE#8, f := 0x01#8 },
      outside := fun s => { s with keys := Vector.set s.keys 7 0xE0#8 },
      after := fun c => { c with f := 0xA1#8, b := 0xE0#8 }, pc := 0x8002#16, t := 12, r := 2 },
   { bytes := [0xED#8, 0x48#8], before := fun c => { c with b := 0x00#8, c := 0xFF#8, f := 0x00#8 },
      after := fun c => { c with f := 0xAC#8, c := 0xFF#8 }, pc := 0x8002#16, t := 12, r := 2 },
   { bytes := [0xED#8, 0x70#8], before := fun c => { c with b := 0x7F#8, c := 0xFE#8, f := 0x00#8 },
      outside := fun s => { s with keys := Vector.set s.keys 7 0xE0#8, tape := { s.tape with source := some (blocksWaveform .tap []), earLevel := false } },
      after := fun c => { c with f := 0xA4#8 }, pc := 0x8002#16, t := 12, r := 2 },
   { bytes := [0xD3#8, 0xFE#8], before := fun c => { c with a := 0x15#8 }, pc := 0x8002#16, t := 11, r := 1 },
   { bytes := [0xD3#8, 0xFF#8], before := fun c => { c with a := 0x15#8 }, pc := 0x8002#16, t := 11, r := 1 },
   { bytes := [0xDD#8, 0xD3#8, 0xFE#8], before := fun c => { c with a := 0x10#8 }, pc := 0x8003#16, t := 15,
      r := 2 },
   { bytes := [0xED#8, 0x59#8], before := fun c => { c with b := 0x12#8, c := 0xFE#8, e := 0x0A#8 },
      pc := 0x8002#16, t := 12, r := 2 },
   { bytes := [0xED#8, 0x71#8], before := fun c => { c with b := 0x12#8, c := 0xFE#8 }, pc := 0x8002#16,
      t := 12, r := 2 },
   { bytes := [0x00#8], pc := 0x8001#16, t := 4, r := 1 },
   { bytes := [0xDD#8, 0x00#8], pc := 0x8002#16, t := 8, r := 2 },
   { bytes := [0xDD#8, 0xFD#8, 0x00#8], pc := 0x8003#16, t := 12, r := 3 }]

theorem test_vectors_io_control_1 : vectors_io_control_1.all Vec.ok = true := by decide +kernel

/-- V8 of spec/95_test_vectors.md: ports and CPU control. -/
def vectors_io_control_2 : List Vec :=
  [{ bytes := [0xDD#8, 0xFD#8, 0x21#8, 0x34#8, 0x12#8],
      before := fun c => { c with ix := 0x0000#16, iy := 0x0000#16 },
      after := fun c => { c with iy := 0x1234#16 }, pc := 0x8005#16, t := 18, r := 3 },
   { bytes := [0x76#8], after := fun c => { c with halted := true }, pc := 0x8000#16, t := 4, r := 1 },
   { bytes := [0xDD#8, 0x76#8], after := fun c => { c with halted := true }, pc := 0x8001#16, t := 8, r := 2 },
   { bytes := [0xF3#8], before := fun c => { c with iff1 := true, iff2 := true },
      after := fun c => { c with iff1 := false, iff2 := false }, pc := 0x8001#16, t := 4, r := 1 },
   { bytes := [0xFB#8], before := fun c => { c with iff1 := false, iff2 := false },
      after := fun c => { c with eiDelay := true }, pc := 0x8001#16, t := 4, r := 1 },
   { bytes := [0xED#8, 0x46#8], before := fun c => { c with im := .im2 },
      after := fun c => { c with im := .im0 }, pc := 0x8002#16, t := 8, r := 2 },
   { bytes := [0xED#8, 0x56#8], before := fun c => { c with im := .im0 },
      after := fun c => { c with im := .im1 }, pc := 0x8002#16, t := 8, r := 2 },
   { bytes := [0xED#8, 0x5E#8], before := fun c => { c with im := .im0 },
      after := fun c => { c with im := .im2 }, pc := 0x8002#16, t := 8, r := 2 }]

theorem test_vectors_io_control_2 : vectors_io_control_2.all Vec.ok = true := by decide +kernel

/-- The bits a block I/O instruction defines, whatever the free value is (rule R337). -/
theorem test_ioFlags_defined (u : Byte) : ioFlags 0#8 0x01#8 u &&& 0x43#8 = 0x43#8 ∧
    ioFlags 1#8 0x00#8 u &&& 0x43#8 = 0x02#8 := by
  have h : u &&& maskFree &&& 0x43#8 = 0#8 := by
    rw [BitVec.and_assoc, show maskFree &&& 0x43#8 = 0#8 from rfl, BitVec.and_zero]
  have d : ∀ a b c : Byte, (a ||| b) &&& c = (a &&& c) ||| (b &&& c) := by
    intro a b c; apply BitVec.eq_of_getLsbD_eq; intro i _; simp [Bool.and_or_distrib_right]
  unfold ioFlags
  constructor <;> rw [d, h] <;> rfl

/-! ## Faults and interrupts: X1 .. X3, S12, S17 -/

/-- A step on the bytes leaves the latch with this record, PC and R as given, and nothing else of X1 moved. -/
def faults (bytes : List Byte) (xy : Option Xy) (op : Byte) (pc : Word) (r : Byte) : Bool :=
  let v : Vec := { bytes := bytes, before := fun c => { c with eiDelay := true }, pc := pc, t := 0, r := 0 }
  match step v.start with
  | .next u =>
    decide (u.fault = some { addr := 0x8000#16, xyByte := xy, bytes := [0xED#8, op] }) &&
      decide (u.cpu = { v.start.cpu with pc := pc, r := r, iff1 := true, iff2 := true, eiDelay := false }) &&
      decide (u.clock = 0)
  | _ => false

theorem test_fault_plain : faults [0xED#8, 0x4E#8] none 0x4E#8 0x8002#16 0x02#8 = true := by decide +kernel
theorem test_fault_prefixed :
    faults [0xFD#8, 0xDD#8, 0xED#8, 0x80#8] (some .ix) 0x80#8 0x8004#16 0x04#8 = true := by decide +kernel

/-- `Interrupt(0xFF)` on reset with the given CPU and bytes gives PC, SP, R, the two bytes under SP and the T-states. -/
def interrupts (before : Cpu → Cpu) (mem : List (Nat × Byte)) (pc sp : Word) (r : Byte) (pushed : Word) (t : Nat) : Bool :=
  let s : State := { State.reset with cpu := before Cpu.reset, mem := putAll [] mem }
  let w := s.interrupt 0xFF#8
  decide (w.1.cpu = { s.cpu with pc := pc, sp := sp, r := r, iff1 := false, iff2 := false, halted := false }) &&
    decide (w.1.read16 sp = pushed) && decide (w.2 = t)

theorem test_interrupt_im0 :
    interrupts (fun c => { c with pc := 0x8000#16, sp := 0x9000#16, iff1 := true, iff2 := true, r := 0x7F#8 }) []
      0x0038#16 0x8FFE#16 0x00#8 0x8000#16 13 = true := by decide +kernel
theorem test_interrupt_im1_r_bit7 :
    interrupts (fun c => { c with pc := 0x8000#16, sp := 0x9000#16, im := .im1, r := 0xFF#8 }) []
      0x0038#16 0x8FFE#16 0x80#8 0x8000#16 13 = true := by decide +kernel
theorem test_interrupt_im2_wraps :
    interrupts (fun c => { c with pc := 0x8000#16, sp := 0x9000#16, i := 0xFF#8, im := .im2 })
      [(0xFFFF, 0x21#8), (0, 0xF3#8)] 0xF321#16 0x8FFE#16 0x01#8 0x8000#16 19 = true := by decide +kernel
theorem test_interrupt_im2_scenario :
    interrupts (fun c => { c with pc := 0x1234#16, sp := 0xFFFE#16, i := 0x80#8, im := .im2 })
      [(0x80FF, 0x78#8), (0x8100, 0x56#8)] 0x5678#16 0xFFFC#16 0x01#8 0x1234#16 19 = true := by decide +kernel
theorem test_interrupt_halted_wraps :
    interrupts (fun c => { c with pc := 0xFFFF#16, sp := 0x9000#16, im := .im1, halted := true }) []
      0x0038#16 0x8FFE#16 0x01#8 0x0000#16 13 = true := by decide +kernel
theorem test_interrupt_stack_in_rom :
    interrupts (fun c => { c with pc := 0x8000#16, sp := 0x2000#16, im := .im1 }) []
      0x0038#16 0x1FFE#16 0x01#8 0x0000#16 13 = true := by decide +kernel

/-- X3: the boundary with IFF1 = 0. -/
theorem test_frame_boundary_lost :
    (match step { State.reset with frameAcc := 69886 } with
     | .next u => decide (u.frameAcc = 2) && decide (u.cpu.pc = 1#16) && decide (u.framesPresented = 1)
     | _ => false) = true := by decide +kernel

/-! ## The devices: D1 .. D8 -/

/-- D1: a step on the bytes leaves this border, these beeper events and this MIC event in an open session. -/
def writes (bytes : List Byte) (before : Cpu → Cpu) (mem : List (Nat × Byte)) (border : BitVec 3)
    (ring : List BeeperEvent) (mic : Nat × Bool) : Bool :=
  let v : Vec :=
    { bytes := bytes, before := before, mem := mem, pc := 0#16, t := 0, r := 0
      outside := fun s => { s with recorder := { s.recorder with enabled := true } } }
  match step v.start with
  | .next u =>
    decide (u.ula.border = border) && decide (u.beeper.ring = ring) && decide (u.ula.beeperLevel = !ring.isEmpty) &&
      decide (u.recorder.blockActive = true) && decide ((u.recorder.lastTransitionT, u.recorder.lastLevel) = mic) &&
      decide (u.ula.queue = [])
  | _ => false

theorem test_out_nA : writes [0xD3#8, 0xFE#8] (fun c => { c with a := 0x15#8 }) [] 5#3
    [{ tState := 7, level := true }] (7, false) = true := by decide +kernel
theorem test_out_nA_prefixed : writes [0xDD#8, 0xD3#8, 0xFE#8] (fun c => { c with a := 0x10#8 }) [] 0#3
    [{ tState := 11, level := true }] (11, false) = true := by decide +kernel
theorem test_out_c_e : writes [0xED#8, 0x59#8] (fun c => { c with b := 0x12#8, c := 0xFE#8, e := 0x0A#8 }) [] 2#3 []
    (8, true) = true := by decide +kernel
theorem test_out_c_0 : writes [0xED#8, 0x71#8] (fun c => { c with b := 0x12#8, c := 0xFE#8 }) [] 0#3 []
    (8, false) = true := by decide +kernel
theorem test_outi : writes [0xED#8, 0xA3#8] (fun c => { c with b := 2#8, c := 0xFE#8, h := 0x90#8 })
    [(0x9000, 0x17#8)] 7#3 [{ tState := 12, level := true }] (12, false) = true := by decide +kernel
theorem test_outd : writes [0xED#8, 0xAB#8] (fun c => { c with b := 1#8, c := 0xFE#8, h := 0x90#8 })
    [(0x9000, 0x02#8)] 2#3 [] (12, false) = true := by decide +kernel

/-- D2: keyboard and EAR. -/
def reads (port : Word) (keys : List (Fin 8 × Byte)) (tape : Option Bool) : Byte :=
  let k := keys.foldl (fun (v : Vector Byte 8) p => v.set p.1.val p.2 p.1.isLt) State.reset.keys
  let t : Tape :=
    match tape with
    | none => Tape.reset none
    | some l => { Tape.reset (some (blocksWaveform .tap [])) with earLevel := l }
  ({ State.reset with keys := k, tape := t } : State).ioRead port

theorem test_ula_read : reads 0x00FE#16 [] none = 0xFF#8 ∧ reads 0x00FE#16 [] (some false) = 0xBF#8 ∧
    reads 0x00FE#16 [] (some true) = 0xFF#8 ∧ reads 0xFEFE#16 [(0, 0xFE#8)] none = 0xFE#8 ∧
    reads 0xFDFE#16 [(0, 0xFE#8)] none = 0xFF#8 ∧ reads 0xFCFE#16 [(0, 0xFE#8), (1, 0xFD#8)] none = 0xFC#8 ∧
    reads 0x7FFE#16 [(7, 0xE0#8)] (some false) = 0xA0#8 ∧ reads 0x00FE#16 [(3, 0xF7#8)] none = 0xF7#8 ∧
    reads 0xFFFE#16 [(0, 0xFE#8)] none = 0xFF#8 ∧ reads 0x12FF#16 [] (some false) = 0xFF#8 := by decide +kernel

/-- The first samples of a pipeline. -/
def samples : Nat → Beeper → List Int
  | 0, _ => []
  | n + 1, b => let w := b.nextSample 44100; w.1 :: samples n w.2

/-- D3 (a) and (b): events pushed before the first sample. -/
theorem test_beeper_samples :
    samples 5 ((Beeper.reset.push 44100 100 true).push 44100 200 false) = [-2000, 2010, -2000, -1990, -1980] ∧
    samples 5 (((Beeper.reset.push 44100 21 true).push 44100 52 false).push 44100 83 true) =
      [-2000, 2010, 1999, 1989, 1980] := by decide +kernel

/-- D3 (c): a rewind, and none within the tolerance. -/
theorem test_beeper_rewind :
    ({ Beeper.reset with position := 126 * 3500000 } : Beeper).push 44100 9400 true =
      { Beeper.reset with position := 126 * 3500000, ring := [{ tState := 9400, level := true }], writerCursor := 9400 } ∧
    ({ Beeper.reset with position := 126 * 3500000 } : Beeper).push 44100 9000 true =
      { Beeper.reset with position := 9000 * 44100, ring := [{ tState := 9000, level := true }], writerCursor := 9000,
                          xPrev := -2000 } := by decide +kernel

/-- The tape of a file, or the error. -/
def pulsesOf (format : TapeFormat) (file : List Byte) : Except HostError (List Nat) :=
  match parseTape format file with
  | .ok (some w) => .ok w.durations
  | .ok none => .ok []
  | .error e => .error e

/-- The pulses from number `n` on and what they should be. -/
def isOkFrom (n : Nat) (r : Except HostError (List Nat)) (p : List Nat) : Bool :=
  match r with
  | .ok q => decide (q.drop n = p)
  | .error _ => false

/-- The error and what it should be. -/
def isError (r : Except HostError (List Nat)) (e : HostError) : Bool :=
  match r with
  | .ok _ => false
  | .error d => decide (d = e)

/-- The last two pilot pulses of D4 (a), the sync and the two bytes. -/
def ff00 : List Nat := [2168, 2168, 667, 735] ++ List.replicate 16 1710 ++ List.replicate 16 855

theorem test_tap : isOkFrom 3221 (pulsesOf .tap [0x02#8, 0x00#8, 0xFF#8, 0x00#8]) (ff00 ++ [3500000]) = true ∧
    isError (pulsesOf .tap [0x05#8, 0x00#8, 0xFF#8]) (.tapeParse none) = true := by decide +kernel
theorem test_tap_two_blocks :
    isOkFrom 6478 (pulsesOf .tap [0x02#8, 0x00#8, 0xFF#8, 0x00#8, 0x02#8, 0x00#8, 0xFF#8, 0x00#8])
      (ff00 ++ [3500000]) = true := by decide +kernel
theorem test_tzx :
    isOkFrom 3221 (pulsesOf .tzx (tzxSignature ++ [0x01#8, 0x14#8, 0x10#8, 0#8, 0#8, 0x02#8, 0x00#8, 0xFF#8, 0x00#8]))
      ff00 = true ∧
    isError (pulsesOf .tzx (tzxSignature ++ [0x01#8, 0x14#8, 0x10#8, 0#8, 0#8, 0x02#8, 0x00#8, 0xFF#8, 0x00#8, 0x20#8]))
      (.tapeParse (some (0x20#8, 17))) = true := by decide +kernel

/-- D5: a 16-bit file of the samples +8000, -8000, -8000, +8000. -/
def wav4 : List Byte := wavHeader 44100 8 ++ [8000, -8000, -8000, 8000].flatMap sampleBytes

/-- The tape of D5. -/
def tape4 : Tape :=
  match parseTape .wav wav4 with
  | .ok w => Tape.reset w
  | .error _ => Tape.reset none

/-- What D5's table shows of a tape. -/
def shows (t : Tape) : Bool × Nat × Nat × Bool × Bool × Nat :=
  (t.earLevel, t.cursor, t.nextTransition, t.playing, t.done, t.position)

theorem test_wav_load : isOkFrom 0 (pulsesOf .wav wav4) [79, 159, 79] = true ∧ tape4.earLevel = true := by decide +kernel
/-- A duration of 2^32 - 1 T-states is exact; one of 2^32 is kept as something that is not 0. -/
theorem test_pulseOf_bounds : pulseOf 1 = 1#32 ∧ pulseOf 4294967295 = 0xFFFFFFFF#32 ∧ pulseOf 229374668 = 229374668#32 := by
  decide +kernel
theorem test_wav_long_run : pulseOf (runPulse 1 1228) ≠ 0#32 := by
  unfold pulseOf
  rw [if_neg (by decide)]
  split <;> first | decide | assumption
theorem test_wav_play :
    shows ((tape4.start 100).update 178) = (true, 0, 179, true, false, 78) ∧
    shows ((tape4.start 100).update 179) = (false, 1, 338, true, false, 79) ∧
    shows ((tape4.start 100).update 420) = (false, 3, 417, false, true, 317) := by decide +kernel
theorem test_wav_pause_resume :
    shows (((tape4.start 100).pause 150).resume 1000) = (true, 0, 1029, true, false, 50) ∧
    ((tape4.start 100).pause 150).remaining = 29 := by decide +kernel
theorem test_wav_seek :
    (match tape4.seek 100 with
     | some t => decide (shows t = (false, 1, 0, false, false, 100)) && decide (t.remaining = 138)
     | none => false) = true ∧
    (match tape4.seek 317 with
     | some t => decide (shows t = (false, 3, 0, false, true, 317))
     | none => false) = true := by decide +kernel

/-- D6: the decoder. -/
theorem test_decoder_accepts : decodePulses (List.replicate 98 2168 ++ ff00 ++ [3500000]) = some [0xFF#8, 0x00#8] ∧
    decodePulses (List.replicate 100 2168 ++ [867, 935] ++ List.replicate 16 855) = some [0#8] ∧
    decodePulses (List.replicate 100 2710 ++ [667, 735] ++ List.replicate 16 855) = some [0#8] ∧
    decodePulses (List.replicate 100 2168 ++ [667, 735, 600, 1200] ++ List.replicate 14 855) = some [0#8] ∧
    decodePulses ([400, 400, 400] ++ List.replicate 100 2168 ++ [667, 735] ++ List.replicate 16 1710) = some [0xFF#8] :=
  by decide +kernel
theorem test_decoder_refuses : decodePulses (List.replicate 99 2168 ++ [667, 735] ++ List.replicate 16 855) = none ∧
    decodePulses (List.replicate 100 2168 ++ [868, 735] ++ List.replicate 16 855) = none ∧
    decodePulses (List.replicate 100 2168 ++ [667, 735, 1100, 1100] ++ List.replicate 14 855) = none ∧
    decodePulses (List.replicate 100 2168 ++ [667, 735] ++ List.replicate 15 855) = none ∧
    decodePulses (List.replicate 100 2168 ++ [667]) = none := by decide +kernel

/-- D7: scenario E, up to the update that ends the block. -/
def captured : Recorder :=
  ((((Recorder.reset.fresh .wav false none 0).micEvent 0 true).micEvent 17500 false).micEvent 20000 false).micEvent
    35000 true

theorem test_capture : captured.pendingPulses = [17500, 17500] ∧ captured.lastTransitionT = 35000 ∧
    captured.update MachineConfig.default 385000 false = captured := by decide +kernel
theorem test_finalize :
    (captured.update MachineConfig.default 385001 false).sessionDirty = true ∧
    ((captured.update MachineConfig.default 385001 false).audioBuf.drop 218).take 4 = [2000, 2000, -2000, -2000] ∧
    ((captured.update MachineConfig.default 385001 false).audioBuf.drop 438).take 4 = [-2000, -2000, 2000, 2000] ∧
    (captured.update MachineConfig.default 385001 false).audioBuf.drop 4849 = [2000] := by decide +kernel

/-- D8: the header of 9700 data bytes, and the sizes of an appended file. -/
theorem test_wav_header : ((wavHeader 44100 9700).drop 4).take 4 = [0x08#8, 0x26#8, 0x00#8, 0x00#8] ∧
    ((wavHeader 44100 9700).drop 24).take 8 = [0x44#8, 0xAC#8, 0#8, 0#8, 0x88#8, 0x58#8, 0x01#8, 0#8] ∧
    (wavHeader 44100 9700).drop 40 = [0xE4#8, 0x25#8, 0x00#8, 0x00#8] := by decide +kernel
theorem test_wav_append :
    let file := wavHeader 44100 1000 ++ List.replicate 1000 0#8
    (match existingWav MachineConfig.default file with
     | some w =>
       let out := wavAppend file w (List.replicate 441 0)
       decide (out.length = 1926) && decide ((out.drop 4).take 4 = leBytes 4 1918) &&
         decide ((out.drop 40).take 4 = leBytes 4 1882)
     | none => false) = true := by decide +kernel

/-! ## The fetch word and the program's start -/

/-- The word placed at the fetch address is what the next step runs, from reset, where PC lies in ROM. -/
theorem test_withFetchWord :
    (match step (State.reset.withFetchWord 16 0x3E44) with
     | .next u => decide (u.cpu = { Cpu.reset with a := 0x44#8, pc := 2#16, r := 1#8 })
     | _ => false) = true := by decide +kernel

/-! ## Requests of the host and their errors (rules R405, R501, R515, R516, R548 .. R550) -/

/-- The one line of an error names the subsystem and the path. -/
theorem test_error_line :
    ({ kind := .tapeIo, subsystem := .recorder, path := some "out.tap" } : ErrorMessage).line =
      "recorder: out.tap: filesystem failure during load or save" ∧
    ({ kind := .tapeParse (some (0x20#8, 17)), subsystem := .tape, path := some "a.tzx" } : ErrorMessage).line =
      "tape: a.tzx: unsupported block ID 32 at file offset 17" := by decide +kernel

/-- A start refused without a destination leaves one message; a shutdown without a session answers no error. -/
theorem test_error_messages :
    let s : State := { State.reset with config := { MachineConfig.default with recorderOutputPath := "out.wav" } }
    (match s.act .recordStart with
     | .next t =>
       decide (t.errorStream = [{ kind := .tapeStateConflict, subsystem := .recorder, path := some "out.wav" }]) &&
         decide (t.hostReply.isSome = true) && decide (t.shutdownNow.hostReply = none) &&
         decide (t.shutdownNow.errorStream.length = 1)
     | _ => false) = true := by decide +kernel

/-- Start-up with a tape file that is missing and no audio device: two messages, no tape. -/
theorem test_boot_messages :
    let c : MachineConfig := { MachineConfig.default with tapeInputFormat := .tap, tapeInputPath := "a.tap" }
    (match State.boot c (List.replicate 16384 0#8) Disk.reset false with
     | .ok s =>
       decide (s.errorStream =
         [{ kind := .tapeIo, subsystem := .tape, path := some "a.tap" },
          { kind := .audioDeviceUnavailable, subsystem := .audio, path := none }]) && decide (s.tape.source = none)
     | .error _ => false) = true := by decide +kernel

/-- Key 3 of row 4 down: bit 3 of that row is 0. -/
theorem test_setKey : (State.reset.setKey 4 3 true).keys[4] = 0xF7#8 ∧ (State.reset.setKey 4 3 true).keys[5] = 0xFF#8 ∧
    ((State.reset.setKey 4 3 true).setKey 4 3 false).keys[4] = 0xFF#8 := by decide

/-- A TAP session with two decoded blocks writes their records (R516). -/
theorem test_record_stop_tap :
    let r : Recorder :=
      { Recorder.reset with enabled := true, format := .tap, sessionDirty := true,
                            tapBlocks := [{ data := [0xFF#8, 0x00#8], pauseMs := 0#32 }, { data := [0x07#8], pauseMs := 0#32 }] }
    let t := ({ State.reset with recorder := r } : State).recordStop
    t.disk.recorderOutput = some [0x02#8, 0x00#8, 0xFF#8, 0x00#8, 0x01#8, 0x00#8, 0x07#8] ∧ t.recorder.enabled = false := by
  decide +kernel

/-! ## Witnesses: concrete states and operands that meet the hypotheses of the statements -/

/-- What holds of the next state, if there is one. -/
def nextIs (o : Result) (p : State → Bool) : Bool :=
  match o with
  | .next t => p t
  | _ => false

theorem exists_of_nextIs {o : Result} {p : State → Bool} (h : nextIs o p = true) : ∃ t, o = .next t ∧ p t = true := by
  cases o with
  | next t => exact ⟨t, rfl, h⟩
  | fault f => exact absurd h (by simp [nextIs])
  | refused r => exact absurd h (by simp [nextIs])

/-- A machine with these bytes at 0x8000 in RAM and PC there. -/
def small (bytes : List Byte) : State :=
  { State.reset with cpu := { Cpu.reset with pc := 0x8000#16, sp := 0x9000#16 }, mem := Memory.putBytes [] 0x8000#16 bytes }

theorem small_inv (bytes : List Byte) (h : (small bytes).mem.wf = true) : (small bytes).Inv := by
  refine ⟨h, rfl, rfl, Nat.le_refl _, Nat.zero_le _, ?_, ?_, ?_, fun _ => rfl⟩
  · intro h; exact absurd h (by simp [small, State.reset, Recorder.reset])
  · intro w h; exact absurd h (by simp [small, State.reset, Tape.reset])
  · intro w h; exact absurd h (by simp [small, State.reset, Tape.reset])

theorem witness_DecodeOfEncode : Instr.ldir.wf = true ∧ Instr.ldir.complete = true ∧ Instr.prefixCb.wf = true ∧
    Instr.prefixCb.complete = false := by decide
theorem witness_EncodeOfDecode : decode [0xDD#8, 0x23#8, 0x01#8] = .ok (.incXy .ix, [0x01#8]) := by rfl
theorem witness_UndefinedEncodings : (0xDB#8 : Byte) ∉ [0xCB#8, 0xDD#8, 0xED#8, 0xFD#8] ∧ (0xFD#8 : Byte) = 0xFD#8 := by decide
theorem witness_StepRunsDecoded : ∃ rest, (small [0x04#8]).running ∧ (small [0x04#8]).schedule = [] ∧
    (small [0x04#8]).cpu.halted = false ∧
    decode (fetchBytes (small [0x04#8]).mem fetchLimit (small [0x04#8]).cpu.pc) = .ok (.incR .b, rest) ∧
    (Instr.incR .b).complete = true :=
  ⟨fetchBytes (small [0x04#8]).mem 65539 0x8001#16, ⟨rfl, rfl⟩, rfl, rfl, by
    show decode (0x04#8 :: _) = _; rfl, rfl⟩
theorem witness_StepRunsEncoded : (small [0xED#8, 0x44#8]).running ∧ (small [0xED#8, 0x44#8]).schedule = [] ∧
    (small [0xED#8, 0x44#8]).cpu.halted = false ∧ (Instr.neg 0).wf = true ∧ (Instr.neg 0).complete = true ∧
    (encode (.neg 0)).length ≤ Config.memSize ∧
    (∀ k, k < (encode (.neg 0)).length → (encode (.neg 0))[k]? =
      some ((small [0xED#8, 0x44#8]).read8 ((small [0xED#8, 0x44#8]).cpu.pc + BitVec.ofNat 16 k))) :=
  ⟨⟨rfl, rfl⟩, rfl, rfl, rfl, rfl, by decide, by decide +kernel⟩

/-- Index prefixes at `n` addresses from `lo` on. -/
def prefixCells (lo : Nat) : Nat → Memory
  | 0 => []
  | n + 1 => (lo, if lo % 2 = 0 then 0xDD#8 else 0xFD#8) :: prefixCells (lo + 1) n

theorem prefixCells_get (a : Nat) : ∀ n lo, lo ≤ a → a < lo + n →
    (prefixCells lo n).get a = 0xDD#8 ∨ (prefixCells lo n).get a = 0xFD#8
  | 0, lo, h, h' => by omega
  | n + 1, lo, h, h' => by
    by_cases e : lo = a
    · rw [prefixCells, Memory.get, if_pos e]
      split <;> simp
    · rw [prefixCells, Memory.get, if_neg e]
      exact prefixCells_get a n (lo + 1) (by omega) (by omega)

theorem witness_StepRunsEncoded_endless :
    ∃ s : State, s.running ∧ s.schedule = [] ∧ s.cpu.halted = false ∧ ∀ x : Word, s.read8 x = 0xDD#8 ∨ s.read8 x = 0xFD#8 :=
  ⟨{ State.reset with mem := prefixCells 0 65536 }, ⟨rfl, rfl⟩, rfl, rfl, fun x =>
    prefixCells_get x.toNat 65536 0 (Nat.zero_le _) (by have := x.isLt; omega)⟩

/-- A halted machine four T-states before the boundary, interrupts enabled. -/
def halting : State :=
  { small [0x76#8] with cpu := { (small [0x76#8]).cpu with halted := true, iff1 := true, iff2 := true }, frameAcc := 69884 }

theorem witness_HaltedStep : halting.running ∧ halting.schedule = [] ∧ halting.cpu.halted = true :=
  ⟨⟨rfl, rfl⟩, rfl, rfl⟩
theorem witness_HaltedStep_wakes :
    ∃ t, halting.iterate = .next t ∧ decide (t.cpu.halted = false ∧ t.cpu.pc = 0x0038#16) = true :=
  exists_of_nextIs (by decide +kernel)
theorem witness_HaltedStep_sleeps :
    ∃ t, ({ halting with frameAcc := 69883 } : State).iterate = .next t ∧
      decide (t.cpu.halted = true ∧ t.cpu.pc = 0x8000#16) = true := exists_of_nextIs (by decide +kernel)
theorem witness_EiTakesEffectOneStepLate :
    ({ small [0x00#8] with cpu := { (small []).cpu with eiDelay := true } } : State).cpu.eiDelay = true := rfl
theorem witness_ClockAdvances :
    ∃ t, (small [0x00#8]).iterate = .next t ∧ decide (t.fault = none ∧ t.clock = 4) = true :=
  exists_of_nextIs (by decide +kernel)
theorem witness_UndefinedEdSetsLatch : (small []).fault = none ∧ (small []).shutDown = false := ⟨rfl, rfl⟩

/-- A machine whose latch is set, with a request of the host queued. -/
def latched : State :=
  { small [] with fault := some { addr := 0x8000#16, xyByte := none, bytes := [0xED#8, 0x00#8] }, schedule := [.tapeStart] }

theorem witness_UndefinedEdSetsLatch_latched : latched.shutDown = false ∧
    latched.fault = some { addr := 0x8000#16, xyByte := none, bytes := [0xED#8, 0x00#8] } := ⟨rfl, rfl⟩
theorem witness_OnlyUndefinedEdFaults :
    ∃ t, step (small [0xFD#8, 0xDD#8, 0xED#8, 0x00#8]) = .next t ∧
      decide (t.fault = some { addr := 0x8000#16, xyByte := some .ix, bytes := [0xED#8, 0x00#8] }) = true :=
  exists_of_nextIs (by decide +kernel)
/-- The bytes at PC there: two index prefixes, ED and the sub-opcode. -/
theorem witness_OnlyUndefinedEdFaults_bytes : ([Xy.iy, .ix]).getLast? = some .ix ∧ undefinedEdOp 0x00#8 = true ∧
    (List.range 4).map (fun k => (small [0xFD#8, 0xDD#8, 0xED#8, 0x00#8]).read8 (0x8000#16 + BitVec.ofNat 16 k)) =
      [0xFD#8, 0xDD#8, 0xED#8, 0x00#8] := by decide +kernel
theorem witness_InterruptEntry : halting.mem.wf = true ∧ halting.cpu.im ≠ .im2 ∧
    ({ halting with cpu := { halting.cpu with im := .im2 } } : State).cpu.im = .im2 := by decide
theorem witness_FrameBoundary : ({ halting with frameAcc := 69887 } : State).frameAcc < 69888 ∧
    69888 ≤ ({ halting with frameAcc := 69888 } : State).frameAcc ∧ halting.cpu.iff1 = true ∧
    (small []).cpu.iff1 = false := by decide
theorem witness_InvariantKept : (small [0xC5#8]).Inv ∧ ∃ t, step (small [0xC5#8]) = .next t ∧
    decide (t.cpu.sp = 0x8FFE#16) = true := ⟨small_inv _ (by decide), exists_of_nextIs (by decide +kernel)⟩
theorem witness_RomConfigAndTapeFixed :
    ∃ t, step ({ small [0x77#8] with cpu := { (small []).cpu with a := 0x55#8 } } : State) = .next t ∧
      decide (t.cpu.pc = 0x8001#16) = true := exists_of_nextIs (by decide +kernel)
theorem witness_SystemRegisterWriters :
    (∃ t, exec .ldIA { small [] with cpu := { (small []).cpu with a := 0x80#8 } } = .next t ∧
      decide (t.cpu.i ≠ (small []).cpu.i) = true) ∧
    (∃ t, exec (.xpEd .ix .im2) (small []) = .next t ∧ decide (t.cpu.im ≠ (small []).cpu.im) = true) ∧
    (∃ t, exec .halt (small []) = .next t ∧ decide (t.cpu.halted ≠ (small []).cpu.halted) = true) ∧
    (∃ t, exec .ei (small []) = .next t ∧ decide (t.cpu.eiDelay ≠ (small []).cpu.eiDelay) = true) ∧
    (∃ t, exec .di halting = .next t ∧ decide (t.cpu.iff1 ≠ halting.cpu.iff1 ∧ t.cpu.iff2 ≠ halting.cpu.iff2) = true) ∧
    (∃ t, exec .ldRefreshA { small [] with cpu := { (small []).cpu with a := 0x80#8 } } = .next t ∧
      decide (bit t.cpu.r 7 ≠ bit (small []).cpu.r 7) = true) ∧
    (∃ t, exec .exAfAf { small [] with cpu := { (small []).cpu with a := 0x80#8 } } = .next t ∧
      decide (t.cpu.aAlt ≠ (small []).cpu.aAlt) = true) ∧
    (∃ t, exec .exx { small [] with cpu := { (small []).cpu with b := 0x80#8 } } = .next t ∧
      decide (t.cpu.bAlt ≠ (small []).cpu.bAlt) = true) := by
  refine ⟨?_, ?_, ?_, ?_, ?_, ?_, ?_, ?_⟩ <;> exact exists_of_nextIs (by decide +kernel)
theorem witness_InstructionsReachNoDevice :
    ∃ t, exec (.outNA 0xFE#8) (small []) = .next t ∧ decide (t.ula.queue.length = 1) = true :=
  exists_of_nextIs (by decide +kernel)
theorem witness_PortWriteStamps : (small []).ula.queue = [] ∧
    (small []).ula.lastT ≤ (small []).cursor.tBase + (small []).cursor.t ∧
    ∃ t, exec (.outNA 0xFE#8) (small []) = .next t ∧ decide (t.ula.lastT = 7) = true :=
  ⟨rfl, Nat.le_refl _, exists_of_nextIs (by decide +kernel)⟩
theorem witness_AudioIsUnobservable :
    (small []).withoutAudio = ({ small [] with audioOut := [5] } : State).withoutAudio := rfl
theorem witness_MemoryAccess : (small [0x01#8]).mem.wf = true ∧ (0x3FFF#16).toNat < 0x4000 ∧
    ¬(0x4000#16).toNat < 0x4000 := by decide
theorem witness_Stack : (small []).mem.wf = true ∧ 0x4000 ≤ ((small []).cpu.sp - 2#16).toNat ∧
    0x4000 ≤ ((small []).cpu.sp - 1#16).toNat := by decide
theorem witness_LogicOnAccumulator :
    (AluOp.xor, Bool.xor) ∈ [(AluOp.and, Bool.and), (AluOp.xor, Bool.xor), (AluOp.or, Bool.or)] := by simp
theorem witness_CountByte : (small [0x34#8]).mem.wf = true := by decide
theorem witness_DecimalAdjust : isBcd ({ small [] with cpu := { (small []).cpu with a := 0x99#8 } } : State).cpu.a ∧
    isBcd 0x01#8 := by unfold isBcd; decide
theorem witness_Arithmetic16 : (0x0000#16, 0x11#8) = add16 0xFFFF#16 0x0001#16 0x00#8 := by decide
theorem witness_StoreByteInstructions : (small [0x77#8]).mem.wf = true := by decide
theorem witness_LoadAndStoreWord : (small [0x22#8]).mem.wf = true := by decide
theorem witness_PushAndPop : (small [0xC5#8]).mem.wf = true := by decide
theorem witness_Exchanges : (small [0xE3#8]).mem.wf = true := by decide
theorem witness_AccumulatorRotates : (small [0xED#8, 0x6F#8]).mem.wf = true := by decide
theorem witness_RotateAndShift : (small [0xCB#8, 0x06#8]).mem.wf = true := by decide
theorem witness_TestSetResetBit : (small [0xCB#8, 0x46#8]).mem.wf = true ∧
    (∃ r, Instr.bitR 7 .a = .bitR 7 r ∧ (small []).cpu.a = (small []).cpu.reg8 r) ∧
    (small []).read8 0#16 = (small []).read8 (small []).cpu.hl ∧
    (∃ xy d, Instr.bitXyd .ix 0x80#8 0 6 = .bitXyd xy d 0 6 ∧
      hiByte ((small []).cpu.ea .ix 0x80#8) = hiByte ((small []).cpu.ea xy d)) :=
  ⟨by decide, ⟨.a, rfl, rfl⟩, rfl, ⟨.ix, 0x80#8, rfl, rfl⟩⟩
theorem witness_Jumps : condMeans .nz (small []).cpu.f ∧ ¬condMeans .z (small []).cpu.f ∧
    flagC (small []).cpu.f ≠ true ∧ (small []).cpu.b ≠ 1#8 ∧
    ({ small [] with cpu := { (small []).cpu with b := 1#8 } } : State).cpu.b = 1#8 := by
  unfold condMeans; decide
theorem witness_CallsAndReturns : (small [0xCD#8]).mem.wf = true ∧ condMeans .p (small []).cpu.f ∧
    ¬condMeans .m (small []).cpu.f := by unfold condMeans; decide
theorem witness_BlockTransfer : (small [0xED#8, 0xB0#8]).mem.wf = true := by decide
theorem witness_BlockInputOutput : (small [0xED#8, 0xB2#8]).mem.wf = true := by decide

/-- LDIR in memory, two bytes to copy from 0x9000 to 0xA000. -/
def copying : State :=
  { small [0xED#8, 0xB0#8] with
    cpu := { (small []).cpu with h := 0x90#8, d := 0xA0#8, c := 2#8 } }

theorem witness_LdirCopies : copying.running ∧ copying.schedule = [] ∧ copying.mem.wf = true ∧
    copying.cpu.halted = false ∧ copying.cpu.iff1 = false ∧ copying.cpu.eiDelay = false ∧
    copying.read8 copying.cpu.pc = 0xED#8 ∧ copying.read8 (copying.cpu.pc + 1#16) = 0xB0#8 ∧ 0 < 2 ∧ 2 < 65536 ∧
    copying.cpu.bc = BitVec.ofNat 16 2 ∧ (∀ k, k < 2 → 0x4000 ≤ (copying.cpu.de + BitVec.ofNat 16 k).toNat) ∧
    (∀ k, k < 2 → copying.cpu.de + BitVec.ofNat 16 k ≠ copying.cpu.pc ∧
      copying.cpu.de + BitVec.ofNat 16 k ≠ copying.cpu.pc + 1#16) ∧
    (∀ j k, j < 2 → k < 2 → copying.cpu.de + BitVec.ofNat 16 j ≠ copying.cpu.hl + BitVec.ofNat 16 k) := by
  refine ⟨⟨rfl, rfl⟩, rfl, rfl, rfl, rfl, rfl, rfl, rfl, by decide, by decide, rfl, by decide, by decide, ?_⟩
  intro j k hj hk
  have h : ∀ j < 2, ∀ k < 2, copying.cpu.de + BitVec.ofNat 16 j ≠ copying.cpu.hl + BitVec.ofNat 16 k := by decide
  exact h j hj k hk
theorem witness_PortInput : (0x00FF#16).toNat % 2 = 1 ∧ (0xFEFE#16).toNat % 2 = 0 ∧
    (0xFEFE#16).getLsbD (8 + (0 : Fin 8).val) = false := by decide
theorem witness_PortInput_setKey : (small []).running ∧ (4 : Fin 5).val < 8 := ⟨⟨rfl, rfl⟩, by decide⟩
theorem witness_PortOutput : (∃ n, Instr.outNA 0xFE#8 = .outNA n) ∧ (∃ r, Instr.outCR .e = .outCR r) :=
  ⟨⟨_, rfl⟩, ⟨_, rfl⟩⟩
theorem witness_UlaEventsProcessed : (small []).ula.queue = [] ∧
    ({ small [] with ula := { Ula.reset with queue := [{ value := 0x17#8, tState := 7 }] } } : State).ula.queue =
      [] ++ [{ value := 0x17#8, tState := 7 }] := ⟨rfl, rfl⟩
theorem witness_CpuControlAndPrefixes :
    Instr.xpEd .ix .ldir ∈ [Instr.xpMain .ix .ldir, .xpEd .ix .ldir, .xpXp .ix .ldir] := by simp
theorem witness_BeeperPipeline : Beeper.reset.position ≤ 100 * 44100 + 8 * 3500000 ∧
    9000 * 44100 + 8 * 3500000 < ({ Beeper.reset with position := 126 * 3500000 } : Beeper).position := by decide
/-- Where the two clauses about a push meet, the position is the event's time and 8 samples, and the push appends. -/
theorem witness_BeeperPipeline_boundary :
    let b : Beeper := { Beeper.reset with position := 9000 * 44100 + 8 * 3500000 }
    b.position ≤ 9000 * 44100 + 8 * 3500000 ∧ ¬9000 * 44100 + 8 * 3500000 < b.position ∧
      b.push 44100 9000 true = { b with ring := [{ tState := 9000, level := true }], writerCursor := 9000 } := by decide
theorem witness_BeeperPipeline_full : ∃ b : Beeper, b.position ≤ 100 * 44100 + 8 * 3500000 ∧ b.ring.length = 8192 :=
  ⟨{ Beeper.reset with ring := List.replicate 8192 { tState := 7, level := true } }, by decide, List.length_replicate⟩
theorem witness_BeeperPipeline_audio : (small []).running ∧ (small []).audioOpen = true ∧
    ({ small [] with audioOpen := false } : State).running ∧ ({ small [] with audioOpen := false } : State).audioOpen = false :=
  ⟨⟨rfl, rfl⟩, rfl, ⟨rfl, rfl⟩, rfl⟩
theorem witness_SampleBound : (small []).beeper.FilterOk ∧
    ∃ t, step ({ small [] with schedule := [.audioSample] } : State) = .next t ∧ decide (t.audioOut = [-2000]) = true :=
  ⟨.inl ⟨rfl, rfl⟩, exists_of_nextIs (by decide +kernel)⟩
theorem witness_TapeControls : (Tape.reset none).source = none ∧
    ((tape4.start 100).update 150).playing = true ∧ ((tape4.start 100).update 150).update 150 = (tape4.start 100).update 150 ∧
    0 < ((tape4.start 100).pause 150).remaining ∧ ((tape4.start 100).pause 150).done = false ∧
    (blocksWaveform .tap []).pulses = [] := by decide +kernel
/-- A machine with the tape of D5 loaded. -/
def taped : State := { small [] with tape := tape4 }

/-- A machine with a tape of one TAP block loaded. -/
def tapTaped : State :=
  { small [] with tape := Tape.reset (some (blocksWaveform .tap [{ data := [0xFF#8], pauseMs := 0#32 }])) }

theorem witness_TapeControls_stops : ((tape4.start 100).update 420).playing = false ∧ (tape4.start 100).playing = true ∧
    tape4.playing = false ∧ tape4.remaining = 0 ∧ ((tape4.start 100).update 420).done = true := by decide +kernel
theorem witness_TapeControls_requests : taped.running ∧ tapTaped.running ∧ (small []).tape.source = none ∧
    (∃ w, tapTaped.tape.source = some w ∧ w.origin ≠ .wav) :=
  ⟨⟨rfl, rfl⟩, ⟨rfl, rfl⟩, rfl, _, rfl, by decide⟩
/-- Both sides of the end of the tape, and of a pulse's end. -/
theorem witness_TapeControls_seek :
    (taped.tape.source.map (fun w => decide (w.origin = .wav ∧ w.durations.sum ≤ 317 ∧
      (w.durations.take 2).sum ≤ 316 ∧ 316 < (w.durations.take 3).sum ∧
      (w.durations.take 0).sum ≤ 78 ∧ 78 < (w.durations.take 1).sum ∧
      (w.durations.take 1).sum ≤ 79 ∧ 79 < (w.durations.take 2).sum))) = some true := by decide +kernel
theorem witness_TapePlayback : (tape4.source.map (fun w => decide (w.pulses ≠ []) && w.pulses.all (fun p => p != 0#32))) = some true ∧
    100 ≤ 100 := by decide +kernel
theorem witness_TapeRoundTrip : ({ data := [0xFF#8], pauseMs := 0#32 } : Block).data ≠ [] := by decide
theorem witness_TapeRoundTrip_tap :
    (match parseTap [0x01#8, 0x00#8, 0xFF#8, 0x00#8, 0x00#8] with
     | .ok bs => decide (bs = [{ data := [0xFF#8], pauseMs := 1000#32 }, { data := [], pauseMs := 1000#32 }])
     | .error _ => false) = true ∧
    (match parseTap [0x01#8] with | .ok _ => false | .error e => decide (e = .tapeParse none)) = true := by decide +kernel
theorem witness_TapeRoundTrip_tzx :
    (match parseTzx (tzxSignature ++ [1#8, 20#8, 0x10#8, 0x01#8, 0x00#8, 0x01#8, 0x00#8, 0xFF#8]) with
     | .ok bs => decide (bs = [{ data := [0xFF#8], pauseMs := 1#32 }])
     | .error _ => false) = true ∧ (0x11#8 : Byte) ≠ 0x10#8 ∧ [0xFF#8].length < 65536 ∧
    (match parseTzx (tzxSignature ++ [1#8, 20#8, 0x11#8]) with
     | .ok _ => false
     | .error e => decide (e = .tapeParse (some (0x11#8, 10)))) = true := by decide +kernel
/-- Pauses and durations within their bounds, and one duration past 32 bits. -/
theorem witness_TapeRoundTrip_durations : ({ data := [0xFF#8], pauseMs := 65535#32 } : Block).pauseMs.toNat < 65536 ∧
    4294967295 < 2 ^ 32 ∧ ¬4294967296 < 2 ^ 32 ∧ 1 ≤ 4294967296 := by decide
/-- Three samples, the last byte odd: a run of two and a run of one; 8-bit samples on both sides of 128. -/
theorem witness_TapeRoundTrip_wav :
    let w : WavFile :=
      { format := { audioFormat := 1, channels := 1, sampleRate := 44100, bits := 16 }
        data := [0, 5, -5].flatMap sampleBytes ++ [7#8], dataOffset := 44, dataIsLast := true }
    let v : WavFile := { w with format := { w.format with bits := 8 }, data := [127#8, 128#8] }
    w.format.bits = 16 ∧ (∀ x ∈ [(0 : Int), 5, -5], -32768 ≤ x ∧ x ≤ 32767) ∧ [7#8].length ≤ 1 ∧
      w.signs = runsOf (fun b => b) true [2, 1] ∧ v.format.bits = 8 ∧ v.signs = [false, true] ∧
      ({ v with data := [] } : WavFile).signs = [] := by decide +kernel
theorem witness_RecorderCapture : Recorder.reset.enabled = false ∧
    (Recorder.reset.fresh .wav false none 0).enabled = true ∧
    (Recorder.reset.fresh .wav false none 0).blockActive = false ∧ captured.enabled = true ∧ captured.blockActive = true ∧
    350000 < 385001 - captured.lastTransitionT := by decide
/-- A machine whose recorder has this format, and this file at its destination. -/
def recording (format : RecFormat) (file : Option (List Byte)) (enabled : Bool) : State :=
  { small [] with
    config := { MachineConfig.default with recorderOutputFormat := format, recorderOutputPath := "out.tap" }
    disk := { Disk.reset with recorderOutput := file }
    recorder := { Recorder.reset with enabled := enabled } }

theorem witness_RecorderCapture_sessions :
    (recording .wav none true).running ∧ (recording .wav none true).recorder.enabled = true ∧
    (recording .tap none false).config.recorderOutputFormat ≠ .wav ∧
    (recording .none none false).config.recorderOutputFormat = .none ∧
    (recording .tap none false).recorder.enabled = false ∧ (recording .tap none false).config.recorderOutputFormat = .tap ∧
    (recording .wav none false).disk.recorderOutput = none ∧
    ({ Disk.reset with recorderOutput := some wav4, readable := false } : Disk).readable = false ∧
    (recording .wav (some wav4) false).disk.recorderOutput = some wav4 ∧
    (existingWav (recording .wav (some wav4) false).config wav4).isSome = true ∧
    (existingWav (recording .wav (some []) false).config []) = none := by
  refine ⟨⟨rfl, rfl⟩, rfl, ?_, rfl, rfl, rfl, rfl, rfl, rfl, ?_, ?_⟩ <;> decide +kernel
theorem witness_WavFiles : 0 < MachineConfig.default.recSampleRate ∧ MachineConfig.default.recSampleRate < 2 ^ 32 ∧
    2 * 1 ≤ [0x01#8, 0x02#8].length ∧ 36 + 2 * (1 + [(1 : Int)].length) < 2 ^ 32 ∧
    (existingWav MachineConfig.default wav4).isSome = true := by decide +kernel
theorem witness_WavFiles_field : 4294967295 < 2 ^ 32 ∧ u32Field 4294967295 = [0xFF#8, 0xFF#8, 0xFF#8, 0xFF#8] := by
  decide +kernel
/-- The sizes of an appended file, at an even and at an odd size of the old data chunk. -/
theorem witness_WavFiles_append :
    (existingWav MachineConfig.default wav4).map (fun w => decide (w.data.length + 2 * 3 < 2 ^ 32 ∧ w.data.length % 2 = 0)) =
      some true ∧
    (existingWav MachineConfig.default (wavHeader 44100 1 ++ [5#8, 0#8])).map (fun w => w.data.length) = some 1 := by
  decide +kernel
theorem witness_WavFiles_output : (Recorder.reset.fresh .tap false none 0).format = .tap ∧
    (Recorder.reset.fresh .wav false none 0).format = .wav ∧ (Recorder.reset.fresh .wav false none 0).wavExisting = none ∧
    (Recorder.reset.fresh .wav true (some wav4) 4).wavExisting = some wav4 := by decide +kernel

/-- A TAP session with a decoded block, an open block of one pulse, and a write that fails or not. -/
def saving (writable : Bool) : State :=
  { recording .tap none true with
    disk := { Disk.reset with writable := writable }
    recorder := { Recorder.reset with enabled := true, format := .tap, blockActive := true, pendingPulses := [9],
                                      tapBlocks := [{ data := [0xFF#8, 0x00#8], pauseMs := 0#32 }] } }

theorem witness_WavFiles_stop : (saving true).running ∧ (saving true).disk.writable = true ∧
    (saving false).disk.writable = false ∧
    ((saving true).recorder.update (saving true).config (saving true).clock true).sessionDirty = true ∧
    ((recording .tap none true).recorder.update (recording .tap none true).config 0 true).sessionDirty = false := by
  refine ⟨⟨rfl, rfl⟩, rfl, rfl, ?_, ?_⟩ <;> decide +kernel
theorem witness_BootAndShutdown : ([] : List Byte).length ≠ 16384 ∧ (List.replicate 16384 0xFF#8).length = 16384 ∧
    (small []).Inv ∧ (small []).running ∧ (small []).recorder.enabled = false ∧ (saving true).running ∧
    (saving true).recorder.enabled = true ∧ (∃ t, RequestAnswers .shutdown (small []) t) ∧
    (∃ t, RequestAnswers .shutdown (saving true) t) ∧ ∃ u, RequestAnswers .recordStop (saving true) u :=
  ⟨by decide, List.length_replicate, small_inv _ rfl, ⟨rfl, rfl⟩, rfl, ⟨rfl, rfl⟩, rfl, ⟨_, rfl⟩, ⟨_, rfl⟩, ⟨_, rfl⟩⟩
theorem witness_BootAndShutdown_tape : MachineConfig.default.tapeInputFormat = .none ∧
    ({ MachineConfig.default with tapeInputFormat := .tap } : MachineConfig).tapeInputFormat ≠ .none ∧
    Disk.reset.tapeInput = none ∧ ({ Disk.reset with tapeInput := some [0#8, 0#8] } : Disk).readable = true := by decide

end Sys2Proof.Tests
end

section
/-! Effects: all that one instruction can do to the machine, said once for every instruction (rules R22 .. R34, R40, R68,
R79, R407): the statements on what an instruction leaves alone are read off it. -/

namespace Sys2Proof.Machine

/-! ## The system registers -/

/-- A CPU with the general registers, the index registers, SP, PC and the low seven bits of R blanked: what is left is
I, the interrupt mode, `halted`, the EI one-shot, the flip-flops, bit 7 of R and the shadows. -/
def Cpu.system (c : Cpu) : Cpu :=
  { c with a := 0, f := 0, b := 0, c := 0, d := 0, e := 0, h := 0, l := 0, ix := 0, iy := 0, sp := 0, pc := 0,
           r := c.r &&& 0x80#8 }

theorem and_bit7_eq {x y : Byte} (h : bit x 7 = bit y 7) : x &&& 0x80#8 = y &&& 0x80#8 := by
  have e : ∀ z : Byte, z &&& 0x80#8 = maskIf (bit z 7) 0x80#8 := by decide
  rw [e, e, h]

theorem bit7_and (x : Byte) : bit (x &&& 0x80#8) 7 = bit x 7 := by simp [bit]

/-- Only an increment of R among the writes of R is no system write (rule R29). -/
theorem Cpu.system_count (c : Cpu) (pc : Word) (k : Nat) :
    ({ c with pc := pc, r := incRTimes k c.r } : Cpu).system = c.system := by
  simp only [Cpu.system, and_bit7_eq (bit7_incRTimes k c.r)]

/-- Which system registers may differ between `c` and `d` after the instruction `j` (rules R22, R28 .. R33, R46). -/
structure SystemWrites (j : Instr) (c d : Cpu) : Prop where
  i : d.i ≠ c.i → j = .ldIA
  im : d.im ≠ c.im → j = .im0 ∨ j = .im1 ∨ j = .im2
  halted : d.halted ≠ c.halted → j = .halt
  eiDelay : d.eiDelay ≠ c.eiDelay → j = .ei
  iff1 : d.iff1 ≠ c.iff1 → j = .di ∨ j = .reti ∨ ∃ y, j = .retn y
  iff2 : d.iff2 ≠ c.iff2 → j = .di
  bit7 : bit d.r 7 ≠ bit c.r 7 → j = .ldRefreshA
  af : d.aAlt ≠ c.aAlt ∨ d.fAlt ≠ c.fAlt → j = .exAfAf
  shadows : d.bAlt ≠ c.bAlt ∨ d.cAlt ≠ c.cAlt ∨ d.dAlt ≠ c.dAlt ∨ d.eAlt ≠ c.eAlt ∨ d.hAlt ≠ c.hAlt ∨
    d.lAlt ≠ c.lAlt → j = .exx
  agree : c.iff1 = c.iff2 → d.iff1 = d.iff2

/-! ## The two relations -/

/-- What an ordinary instruction, or a part of one, does: it touches the CPU but no system register, the cursor, RAM and
the counter of the free values, and nothing else. -/
structure Plain (s t : State) : Prop where
  frame : t = { s with cpu := t.cpu, cursor := t.cursor, mem := t.mem, freeDraws := t.freeDraws }
  base : t.cursor.tBase = s.cursor.tBase
  start : t.cursor.start = s.cursor.start
  later : s.cursor.t ≤ t.cursor.t
  rom : ∀ x, x < Config.romSize → t.mem.get x = s.mem.get x
  wf : s.mem.wf = true → t.mem.wf = true
  system : t.cpu.system = s.cpu.system

/-- What an instruction, `j` behind its index prefixes, does to the machine. -/
structure Effect (j : Instr) (s t : State) : Prop where
  frame : t = { s with
    cpu := t.cpu
    cursor := t.cursor
    mem := t.mem
    ula := { s.ula with queue := t.ula.queue, lastT := t.ula.lastT }
    fault := t.fault
    freeDraws := t.freeDraws }
  base : t.cursor.tBase = s.cursor.tBase
  start : t.cursor.start = s.cursor.start
  rom : ∀ x, x < Config.romSize → t.mem.get x = s.mem.get x
  wf : s.mem.wf = true → t.mem.wf = true
  /-- No port write, or one, and then no fatal fault (rules R407, R408). -/
  port : t.ula = s.ula ∨ t.fault = s.fault ∧ ∃ v stamp, s.cursor.tBase + s.cursor.t ≤ stamp ∧
    stamp < s.cursor.tBase + t.cursor.t ∧ t.ula = s.ula.enqueue v stamp
  system : SystemWrites j s.cpu.system t.cpu.system

/-! ## Composition -/

@[simp] theorem Plain.refl (s : State) : Plain s s := ⟨rfl, rfl, rfl, Nat.le_refl _, fun _ _ => rfl, id, rfl⟩

theorem Plain.trans {s t u : State} (h : Plain s t) (k : Plain t u) : Plain s u where
  frame := k.frame.trans (by rw [h.frame])
  base := k.base.trans h.base
  start := k.start.trans h.start
  later := Nat.le_trans h.later k.later
  rom x hx := (k.rom x hx).trans (h.rom x hx)
  wf hm := k.wf (h.wf hm)
  system := k.system.trans h.system

theorem SystemWrites.refl (j : Instr) (c : Cpu) : SystemWrites j c c where
  i h := absurd rfl h
  im h := absurd rfl h
  halted h := absurd rfl h
  eiDelay h := absurd rfl h
  iff1 h := absurd rfl h
  iff2 h := absurd rfl h
  bit7 h := absurd rfl h
  af h := by simp at h
  shadows h := by simp at h
  agree := id

/-- An ordinary instruction is one that writes no system register and no port. -/
theorem Plain.effect {s t : State} (h : Plain s t) (j : Instr) : Effect j s t where
  frame := h.frame.trans (by rw [h.frame])
  base := h.base
  start := h.start
  rom := h.rom
  wf := h.wf
  port := .inl (by rw [h.frame])
  system := h.system ▸ SystemWrites.refl j _

theorem Plain.andThen {s t u : State} {j : Instr} (h : Plain s t) (k : Effect j t u) : Effect j s u where
  frame := k.frame.trans (by rw [h.frame])
  base := k.base.trans h.base
  start := k.start.trans h.start
  rom x hx := (k.rom x hx).trans (h.rom x hx)
  wf hm := k.wf (h.wf hm)
  port := by
    have hu : t.ula = s.ula := by rw [h.frame]
    have hf : t.fault = s.fault := by rw [h.frame]
    have hl := h.later
    rw [← hu, ← hf, ← h.base]
    exact k.port.imp_right fun ⟨kf, v, stamp, lo, hi, e⟩ => ⟨kf, v, stamp, by omega, hi, e⟩
  system := h.system ▸ k.system

/-! ## The operations instructions are made of -/

section
variable {s t : State}

theorem Plain.setCpu {c : Cpu} (h : Plain s t) (hc : c.system = t.cpu.system) : Plain s (t.setCpu c) :=
  h.trans ⟨rfl, rfl, rfl, Nat.le_refl _, fun _ _ => rfl, id, hc⟩

@[simp] theorem Plain.tick (h : Plain s t) (k : Nat) : Plain s (t.tick k) :=
  h.trans ⟨rfl, rfl, rfl, Nat.le_add_right _ _, fun _ _ => rfl, id, rfl⟩

@[simp] theorem Plain.fetched (h : Plain s t) (n k tt : Nat) : Plain s (t.fetched n k tt) :=
  h.trans ⟨rfl, rfl, rfl, Nat.le_add_right _ _, fun _ _ => rfl, id, Cpu.system_count ..⟩

@[simp] theorem Plain.fetchedIdx (h : Plain s t) (xy : Xy) (n k tt : Nat) : Plain s (t.fetchedIdx xy n k tt) :=
  h.trans ⟨rfl, rfl, rfl, Nat.le_add_right _ _, fun _ _ => rfl, id, Cpu.system_count ..⟩

@[simp] theorem Plain.fetchedXy (h : Plain s t) (xy : Xy) : Plain s (t.fetchedXy xy) :=
  h.trans ⟨rfl, rfl, rfl, Nat.le_add_right _ _, fun _ _ => rfl, id, Cpu.system_count _ _ 1⟩

@[simp] theorem Plain.setA (h : Plain s t) (v : Byte) : Plain s (t.setA v) := h.setCpu rfl
@[simp] theorem Plain.setF (h : Plain s t) (v : Byte) : Plain s (t.setF v) := h.setCpu rfl
@[simp] theorem Plain.setB (h : Plain s t) (v : Byte) : Plain s (t.setB v) := h.setCpu rfl
@[simp] theorem Plain.setSp (h : Plain s t) (v : Word) : Plain s (t.setSp v) := h.setCpu rfl
@[simp] theorem Plain.setPc (h : Plain s t) (v : Word) : Plain s (t.setPc v) := h.setCpu rfl
@[simp] theorem Plain.setAF (h : Plain s t) (w : Byte × Byte) : Plain s (t.setAF w) := h.setCpu rfl
@[simp] theorem Plain.setBc (h : Plain s t) (v : Word) : Plain s (t.setBc v) := h.setCpu rfl
@[simp] theorem Plain.setDe (h : Plain s t) (v : Word) : Plain s (t.setDe v) := h.setCpu rfl
@[simp] theorem Plain.setHl (h : Plain s t) (v : Word) : Plain s (t.setHl v) := h.setCpu rfl
@[simp] theorem Plain.setAfPair (h : Plain s t) (v : Word) : Plain s (t.setAfPair v) := h.setCpu rfl
@[simp] theorem Plain.pop16 (h : Plain s t) : Plain s t.pop16.2 := h.setCpu rfl

@[simp] theorem Plain.setReg8 (h : Plain s t) (r : Reg8) (v : Byte) : Plain s (t.setReg8 r v) :=
  h.setCpu (by cases r <;> rfl)

@[simp] theorem Plain.setXy (h : Plain s t) (xy : Xy) (v : Word) : Plain s (t.setXy xy v) := by
  cases xy <;> exact h.setCpu rfl

@[simp] theorem Plain.setHalf (h : Plain s t) (xy : Xy) (k : Half) (v : Byte) : Plain s (t.setHalf xy k v) := by
  cases k <;> exact h.setXy xy _

@[simp] theorem Plain.setReg8Xy (h : Plain s t) (xy : Xy) (r : Reg8) (v : Byte) : Plain s (t.setReg8Xy xy r v) := by
  cases r <;> simp [State.setReg8Xy, h]

@[simp] theorem Plain.setRp (h : Plain s t) (p : Rp) (v : Word) : Plain s (t.setRp p v) := by
  cases p <;> simp [State.setRp, h]

@[simp] theorem Plain.setRp2 (h : Plain s t) (p : Rp2) (v : Word) : Plain s (t.setRp2 p v) := by
  cases p <;> simp [State.setRp2, h]

@[simp] theorem Plain.write8 (h : Plain s t) (a : Word) (v : Byte) : Plain s (t.write8 a v) :=
  h.trans ⟨by rw [State.write8_eq], by simp, by simp, by simp, fun _ => State.write8_get_rom a v, State.write8_wf a v,
    by simp⟩

@[simp] theorem Plain.write16 (h : Plain s t) (a v : Word) : Plain s (t.write16 a v) :=
  (h.write8 _ _).write8 _ _

@[simp] theorem Plain.push16 (h : Plain s t) (v : Word) : Plain s (t.push16 v) :=
  (((h.setSp _).write8 _ _).setSp _).write8 _ _

@[simp] theorem Plain.drawIoFlags (h : Plain s t) : Plain s t.drawIoFlags :=
  h.trans ⟨rfl, rfl, rfl, Nat.le_refl _, fun _ _ => rfl, id, rfl⟩

@[simp] theorem Plain.ite {c : Prop} [Decidable c] {u : State} (h : Plain s t) (k : Plain s u) :
    Plain s (if c then t else u) := by
  split <;> assumption

@[simp] theorem Plain.repeatIf (h : Plain s t) (again : Bool) : Plain s (t.repeatIf again) :=
  ((h.setPc _).tick 5).ite h

/-! ## The parts that several instructions share -/

@[simp] theorem Plain.alu (h : Plain s t) (op : AluOp) (v : Byte) : Plain s (t.alu op v) := h.setAF _
@[simp] theorem Plain.aluReg (h : Plain s t) (op : AluOp) (r : Reg8) : Plain s (t.aluReg op r) := (h.fetched ..).alu _ _
@[simp] theorem Plain.aluMemHl (h : Plain s t) (op : AluOp) : Plain s (t.aluMemHl op) := (h.fetched ..).alu _ _
@[simp] theorem Plain.aluImm (h : Plain s t) (op : AluOp) (n : Byte) : Plain s (t.aluImm op n) := (h.fetched ..).alu _ _
@[simp] theorem Plain.aluXyd (h : Plain s t) (op : AluOp) (xy : Xy) (d : Byte) : Plain s (t.aluXyd op xy d) :=
  (h.fetchedIdx ..).alu _ _
@[simp] theorem Plain.aluXyHalf (h : Plain s t) (op : AluOp) (xy : Xy) (k : Half) : Plain s (t.aluXyHalf op xy k) :=
  (h.fetchedIdx ..).alu _ _
@[simp] theorem Plain.stepReg (h : Plain s t) (f : Byte → Byte → Byte × Byte) (r : Reg8) : Plain s (t.stepReg f r) :=
  (h.setReg8 _ _).setF _
@[simp] theorem Plain.stepMem (h : Plain s t) (f : Byte → Byte → Byte × Byte) (a : Word) : Plain s (t.stepMem f a) :=
  (h.setF _).write8 _ _
@[simp] theorem Plain.stepHalf (h : Plain s t) (f : Byte → Byte → Byte × Byte) (xy : Xy) (k : Half) :
    Plain s (t.stepHalf f xy k) := (h.setHalf ..).setF _
@[simp] theorem Plain.setHlF (h : Plain s t) (w : Word × Byte) : Plain s (t.setHlF w) := (h.setHl _).setF _
@[simp] theorem Plain.setXyF (h : Plain s t) (xy : Xy) (w : Word × Byte) : Plain s (t.setXyF xy w) := (h.setXy _ _).setF _
@[simp] theorem Plain.blockLd (h : Plain s t) (delta : Word) : Plain s (t.blockLd delta) :=
  (((((h.fetched ..).write8 _ _).setHl _).setDe _).setBc _).setF _
@[simp] theorem Plain.blockCp (h : Plain s t) (delta : Word) : Plain s (t.blockCp delta) :=
  (((h.fetched ..).setHl _).setBc _).setF _
@[simp] theorem Plain.blockIn (h : Plain s t) (delta : Word) : Plain s (t.blockIn delta) :=
  ((((h.fetched ..).write8 _ _).setHl _).setB _).drawIoFlags
@[simp] theorem Plain.jumpRel (h : Plain s t) (e : Byte) : Plain s (t.jumpRel e) := h.setPc _
@[simp] theorem Plain.jrIf (h : Plain s t) (taken : Bool) (e : Byte) : Plain s (t.jrIf taken e) :=
  (((h.fetched ..).jumpRel e).tick 5).ite (h.fetched ..)
@[simp] theorem Plain.callTo (h : Plain s t) (target : Word) : Plain s (t.callTo target) := (h.push16 _).setPc _
@[simp] theorem Plain.popPc (h : Plain s t) : Plain s t.popPc := h.pop16.setPc _
@[simp] theorem Plain.loadAir (h : Plain s t) (v : Byte) : Plain s (t.loadAir v) := h.setAF _
@[simp] theorem Plain.rotateA (h : Plain s t) (op : RotOp) : Plain s (t.rotateA op) := (h.fetched ..).setAF _
@[simp] theorem Plain.rotReg (h : Plain s t) (op : RotOp) (r : Reg8) : Plain s (t.rotReg op r) :=
  ((h.fetched ..).setF _).setReg8 _ _
@[simp] theorem Plain.rotMem (h : Plain s t) (op : RotOp) (a : Word) : Plain s (t.rotMem op a).2 := (h.setF _).write8 _ _
@[simp] theorem Plain.rotMemHl (h : Plain s t) (op : RotOp) : Plain s (t.rotMemHl op) := (h.fetched ..).rotMem _ _
@[simp] theorem Plain.rotXyd (h : Plain s t) (op : RotOp) (xy : Xy) (d : Byte) : Plain s (t.rotXyd op xy d) :=
  (h.fetchedIdx ..).rotMem _ _
@[simp] theorem Plain.rotXydR (h : Plain s t) (op : RotOp) (xy : Xy) (d : Byte) (r : Reg8) :
    Plain s (t.rotXydR op xy d r) := ((h.fetchedIdx ..).rotMem _ _).setReg8 _ _
@[simp] theorem Plain.rotateDigits (h : Plain s t) (f : Byte → Byte → Byte × Byte) : Plain s (t.rotateDigits f) :=
  ((h.fetched ..).setAF _).write8 _ _
@[simp] theorem Plain.bitReg (h : Plain s t) (f : Byte → Byte) (r : Reg8) : Plain s (t.bitReg f r) :=
  (h.fetched ..).setReg8 _ _
@[simp] theorem Plain.bitMemHl (h : Plain s t) (f : Byte → Byte) : Plain s (t.bitMemHl f) := (h.fetched ..).write8 _ _
@[simp] theorem Plain.bitXyd (h : Plain s t) (f : Byte → Byte) (xy : Xy) (d : Byte) : Plain s (t.bitXyd f xy d) :=
  (h.fetchedIdx ..).write8 _ _
@[simp] theorem Plain.bitXydR (h : Plain s t) (f : Byte → Byte) (xy : Xy) (d : Byte) (r : Reg8) :
    Plain s (t.bitXydR f xy d r) := ((h.fetchedIdx ..).write8 _ _).setReg8 _ _

end

/-! ## The instructions that reach further -/

/-- A port write, between the T-states before it and those after it (rules R122, R407). -/
theorem Effect.ioWrite {s t u : State} {j : Instr} {port : Word} {v : Byte} (h : Plain s t)
    (k : Plain (t.ioWrite port v) u) (hlt : t.cursor.t < u.cursor.t) : Effect j s u := by
  have hu : u.ula = (t.ioWrite port v).ula := by rw [k.frame]
  have hf : u.fault = t.fault := by rw [k.frame, State.ioWrite_eq]
  refine h.andThen ?_
  refine ⟨?_, k.base.trans (by simp), k.start.trans (by simp), by simpa using k.rom, by simpa using k.wf, ?_, ?_⟩
  · rw [k.frame, State.ioWrite_eq]
    simp only [State.ioWrite, State.ulaWrite]
    split <;> rfl
  · rw [hu, hf]
    simp only [State.ioWrite, State.ulaWrite]
    split
    · exact .inl rfl
    · exact .inr ⟨trivial, v, _, Nat.le_refl _, by omega, rfl⟩
  · have := k.system
    rw [State.ioWrite_cpu] at this
    exact this ▸ SystemWrites.refl j _

/-- A write of a system register after the fetch. -/
theorem Effect.setCpu {s t : State} {j : Instr} {c : Cpu} (h : Plain s t)
    (hc : SystemWrites j t.cpu.system c.system) : Effect j s (t.setCpu c) :=
  h.andThen ⟨rfl, rfl, rfl, fun _ _ => rfl, id, .inl rfl, hc⟩

/-- The return RETI and RETN make (rules R305, R306). -/
theorem Effect.returnFromInterrupt {s t : State} {j : Instr} (h : Plain s t) (hj : j = .reti ∨ ∃ y, j = .retn y) :
    Effect j s t.returnFromInterrupt := by
  rw [State.returnFromInterrupt_eq]
  refine h.andThen ⟨rfl, rfl, rfl, fun _ _ => rfl, id, .inl rfl, ?_⟩
  exact { SystemWrites.refl j t.cpu.system with iff1 := fun _ => .inr hj, agree := fun _ => rfl }

/-- The fatal fault (rule R560). -/
theorem Effect.raiseUnknownOpcode {s t : State} {j : Instr} (h : Plain s t) (op : Byte) :
    Effect j s (t.raiseUnknownOpcode op) :=
  h.andThen ⟨rfl, rfl, rfl, fun _ _ => rfl, id, .inl rfl, SystemWrites.refl j _⟩

theorem Effect.outC {s : State} {j : Instr} (v : Byte) : Effect j s (s.outC v) :=
  Effect.ioWrite ((Plain.refl s).fetched 2 2 8) ((Plain.refl _).tick 4) (by simp [State.outC])

/-- B counts, the byte at HL goes out 12 T-states into the instruction, then HL and F (rules R333 .. R336). -/
theorem Effect.blockOut {s : State} {j : Instr} (delta : Word) (again : Bool) :
    Effect j s ((s.blockOut delta).repeatIf again) := by
  refine Effect.ioWrite (((Plain.refl s).fetched 2 2 12).setB (s.cpu.b - 1#8))
    (((((Plain.refl _).setHl (_ + delta)).drawIoFlags).tick 4).repeatIf again) ?_
  cases again <;> simp [State.blockOut_eq, State.repeatIf]

/-- All that an instruction does to the machine. -/
theorem exec_effect (i : Instr) (s : State) : ∃ t, exec i s = .next t ∧ Effect (innermost i) s t := by
  have kept := fun (j : Instr) (c : Cpu) => SystemWrites.refl j c.system
  have plain : ∀ {s : State}, Plain s s := fun {s} => Plain.refl s
  induction i generalizing s with
  | xpMain xy i ih =>
    obtain ⟨t, ht, e⟩ := ih (s.fetchedXy xy)
    exact ⟨t, (exec_xpMain xy i s).trans ht, (plain.fetchedXy xy).andThen e⟩
  | xpEd xy i ih =>
    obtain ⟨t, ht, e⟩ := ih (s.fetchedXy xy)
    exact ⟨t, (exec_xpEd xy i s).trans ht, (plain.fetchedXy xy).andThen e⟩
  | xpXp xy i ih =>
    obtain ⟨t, ht, e⟩ := ih (s.fetchedXy xy)
    exact ⟨t, (exec_xpXp xy i s).trans ht, (plain.fetchedXy xy).andThen e⟩
  | ldIA => exact ⟨_, rfl, .setCpu (by simp) { kept _ _ with i := fun _ => rfl }⟩
  | im0 => exact ⟨_, rfl, .setCpu (by simp) { kept _ _ with im := fun _ => .inl rfl }⟩
  | im1 => exact ⟨_, rfl, .setCpu (by simp) { kept _ _ with im := fun _ => .inr (.inl rfl) }⟩
  | im2 => exact ⟨_, rfl, .setCpu (by simp) { kept _ _ with im := fun _ => .inr (.inr rfl) }⟩
  | halt => exact ⟨_, rfl, .setCpu (by simp) { kept _ _ with halted := fun _ => rfl }⟩
  | ei => exact ⟨_, rfl, .setCpu (by simp) { kept _ _ with eiDelay := fun _ => rfl }⟩
  | di =>
    exact ⟨_, rfl, .setCpu (by simp)
      { kept _ _ with iff1 := fun _ => .inl rfl, iff2 := fun _ => rfl, agree := fun _ => rfl }⟩
  | ldRefreshA => exact ⟨_, rfl, .setCpu (by simp) { kept _ _ with bit7 := fun _ => rfl }⟩
  | exAfAf => exact ⟨_, rfl, .setCpu (by simp) { kept _ _ with af := fun _ => rfl }⟩
  | exx => exact ⟨_, rfl, .setCpu (by simp) { kept _ _ with shadows := fun _ => rfl }⟩
  | exDeHl => exact ⟨_, rfl, .setCpu (by simp) (kept _ _)⟩
  | reti => exact ⟨_, rfl, .returnFromInterrupt (by simp) (.inl rfl)⟩
  | retn y => exact ⟨_, rfl, .returnFromInterrupt (by simp) (.inr ⟨y, rfl⟩)⟩
  | undefinedEd op => exact ⟨_, rfl, .raiseUnknownOpcode (by simp) op⟩
  | outNA n => exact ⟨_, rfl, .ioWrite (plain.fetched 2 1 7) (plain.tick 4) (by simp)⟩
  | outCR r => exact ⟨_, rfl, .outC _⟩
  | outC0 => exact ⟨_, rfl, .outC _⟩
  | outi => exact ⟨_, rfl, .blockOut up false⟩
  | outd => exact ⟨_, rfl, .blockOut down false⟩
  | otir => exact ⟨_, rfl, .blockOut up _⟩
  | otdr => exact ⟨_, rfl, .blockOut down _⟩
  | djnz e =>
    have counted : Plain s ((s.fetched 2 1 8).setB ((s.fetched 2 1 8).cpu.b - 1#8)) := (plain.fetched 2 1 8).setB _
    exact ⟨_, rfl, (Plain.ite (c := _ ≠ _) ((counted.jumpRel e).tick 5) counted).effect _⟩
  | jpCcNn cc nn => exact ⟨_, rfl, (((plain.fetched 3 1 10).setPc nn).ite (plain.fetched 3 1 10)).effect _⟩
  | callCcNn cc nn => exact ⟨_, rfl, ((((plain.fetched 3 1 10).callTo nn).tick 7).ite (plain.fetched 3 1 10)).effect _⟩
  | retCc cc => exact ⟨_, rfl, (((plain.fetched 1 1 5).popPc.tick 6).ite (plain.fetched 1 1 5)).effect _⟩
  | popRp2 p => exact ⟨_, rfl, ((plain.fetched 1 1 10).pop16.setRp2 p _).effect _⟩
  | popXy xy => exact ⟨_, rfl, ((plain.fetchedIdx xy 2 2 14).pop16.setXy xy _).effect _⟩
  | exSpHl => exact ⟨_, rfl, (((plain.fetched 1 1 19).write16 _ _).setHl _).effect _⟩
  | exSpXy xy => exact ⟨_, rfl, (((plain.fetchedIdx xy 2 2 23).write16 _ _).setXy xy _).effect _⟩
  | inRC r => exact ⟨_, rfl, (((plain.fetched 2 2 12).setReg8 r _).setF _).effect _⟩
  | _ => exact ⟨_, rfl, Plain.effect (by simp) _⟩

/-- The same of the state an instruction is known to answer. -/
theorem effect_of_exec {i : Instr} {s t : State} (h : exec i s = .next t) : Effect (innermost i) s t := by
  obtain ⟨u, hu, e⟩ := exec_effect i s
  cases hu.symm.trans h
  exact e

end Sys2Proof.Machine
end

section
/-! Instructions: the statements on what every instruction leaves alone, and on EI and the fatal fault. -/

namespace Sys2Proof.Machine

/-- Settles O19: the frame, the step's base and its start address are parts of every instruction's effect. -/
theorem instructionsReachNoDevice : Obligations.InstructionsReachNoDevice := by
  intro i s t h
  have e := effect_of_exec h
  exact ⟨e.frame, e.base, e.start⟩

/-- Settles O18: the system registers an instruction may write are a part of its effect. -/
theorem systemRegisterWriters : Obligations.SystemRegisterWriters := by
  intro i s t h
  obtain ⟨hi, him, hhalted, hei, hiff1, hiff2, hr, haf, hshadows, -⟩ := (effect_of_exec h).system
  simp only [Cpu.system, bit7_and] at hr
  exact ⟨hi, him, hhalted, hei, hiff1, hiff2, hr, haf, hshadows⟩

/-- A write that does not come before the last one joins an empty queue with its own stamp (rules R406, R407). -/
theorem Ula.enqueue_empty {u : Ula} (v : Byte) {stamp : Nat} (hq : u.queue = []) (hl : u.lastT ≤ stamp) :
    u.enqueue v stamp = { u with queue := [{ value := v, tState := stamp }], lastT := stamp } := by
  simp [Ula.enqueue, hq, Nat.max_eq_left hl, Config.ulaQueueCap]

/-- Settles O20, from the one port write an instruction's effect allows. -/
theorem portWriteStamps : Obligations.PortWriteStamps := by
  intro i s t h hq hl
  rcases (effect_of_exec h).port with hu | ⟨-, v, stamp, lo, hi, hu⟩
  · simp [hu, hq]
  · rw [Ula.enqueue_empty v hq (hl.trans lo)] at hu
    simp [hu, lo, hi]

/-- Settles O8: EI writes the one-shot alone, and the first lines of a step turn a pending one into both flip-flops. -/
theorem eiTakesEffectOneStepLate : Obligations.EiTakesEffectOneStepLate := by
  constructor
  · exact fun s => ⟨_, rfl, ⟨rfl, rfl, rfl⟩, rfl, fun _ => rfl, rfl⟩
  · intro s h
    have hbegin : s.beginStep =
        ({ s with cpu := { s.cpu with iff1 := true, iff2 := true, eiDelay := false } } : State).beginStep := by
      simp [State.beginStep, h]
    simp only [State.cpuStep, hbegin]

/-- A set latch stops every step (rules R48, R560). -/
theorem step_of_fault {s : State} {r : FaultRecord} (h : s.shutDown = false) (hf : s.fault = some r) :
    step s = .fault (.unknownOpcode r) := by
  simp [step, h, hf]

/-- Settles O11: the fetch of the two bytes, then the record in a latch that was clear. -/
theorem undefinedEdSetsLatch : Obligations.UndefinedEdSetsLatch := by
  refine ⟨fun op s h => ?_, fun s r => step_of_fault⟩
  refine ⟨_, rfl, ⟨rfl, rfl, rfl⟩, rfl, ?_, rfl⟩
  simp [State.raiseUnknownOpcode, h]

end Sys2Proof.Machine
end

section
/-! Registers: the register file and the reset state (rules R20 .. R29, R49). -/

namespace Sys2Proof.Machine

/-- Settles O22: reading is the definition of a pair; writing splits the word into its halves. -/
theorem pairsAliasHalves : Obligations.PairsAliasHalves := by
  refine ⟨fun c => ⟨rfl, rfl, rfl, rfl⟩, fun s v => ?_, fun c v => ⟨rfl, rfl, rfl, rfl, rfl, rfl, rfl⟩⟩
  simp [Cpu.bc, Cpu.de, Cpu.hl, Cpu.af]

theorem rp_setRp (s : State) (p : Rp) (v : Word) : (s.setRp p v).cpu.rp p = v := by
  cases p <;> simp [State.setRp, Cpu.rp, Cpu.bc, Cpu.de, Cpu.hl]

theorem xy_setXy (s : State) (xy yx : Xy) (v : Word) :
    (s.setXy xy v).cpu.xy yx = if yx = xy then v else s.cpu.xy yx := by
  cases xy <;> cases yx <;> rfl

theorem half_setHalf (s : State) (xy yx : Xy) (k j : Half) (v : Byte) :
    (s.setHalf xy k v).cpu.half yx j = if yx = xy ∧ j = k then v else s.cpu.half yx j := by
  by_cases h : yx = xy
  · subst h
    cases k <;> cases j <;> simp [State.setHalf, Cpu.half, xy_setXy]
  · cases k <;> cases j <;> simp [State.setHalf, Cpu.half, xy_setXy, h]

/-- The low seven bits of R count modulo 128 (rule R29). -/
theorem incR_mod (r : Byte) : (incR r).toNat % 128 = (r.toNat + 1) % 128 := by
  revert r
  decide

theorem incRTimes_mod (n : Nat) (r : Byte) : (incRTimes n r).toNat % 128 = (r.toNat + n) % 128 := by
  induction n generalizing r with
  | zero => rfl
  | succ n ih =>
    rw [incRTimes, ih (incR r), Nat.add_mod, incR_mod, ← Nat.add_mod]
    congr 1
    omega

/-- Settles O23: each write is one record update, and R counts by `incRTimes_mod`. -/
theorem registerFile : Obligations.RegisterFile := by
  refine ⟨Cpu.reg8_setReg8, ?_, ?_, xy_setXy, ?_, half_setHalf, ?_,
    fun n r => ⟨incRTimes_mod n r, bit7_incRTimes n r⟩⟩
  · intro c r v
    cases r <;> rfl
  · intro s p v
    refine ⟨rp_setRp s p v, ?_⟩
    cases p <;> rfl
  · intro s xy v
    cases xy <;> rfl
  · intro s xy k v
    cases xy <;> cases k <;> rfl

theorem inv_reset : State.reset.Inv where
  mem := rfl
  iff := rfl
  queue := rfl
  stamp := Nat.le_refl _
  ring := Nat.zero_le _
  recorded h := by cases h
  tape _ h := by cases h
  pulses _ h := by cases h
  noTape _ := rfl

/-- Settles O16: the invariant field by field, the values by computing the reset state. -/
theorem resetState : Obligations.ResetState := by
  refine ⟨inv_reset, ⟨rfl, rfl⟩, rfl, rfl, rfl, rfl, rfl, rfl, rfl, rfl, rfl, rfl, fun i => ?_, rfl, rfl, rfl, rfl,
    rfl, rfl, rfl, rfl, rfl, rfl, rfl, rfl, rfl, rfl, rfl, rfl⟩
  simp [State.reset]

end Sys2Proof.Machine
end

section
/-! Devices: what the tape, the recorder and the beeper keep through each of their operations (rules R44 .. R47, R445,
R470 .. R480, R504 .. R506). -/

namespace Sys2Proof.Machine

/-! ## The tape that was loaded stays loaded (rule R44) -/

@[simp] theorem Tape.advance_source (w : Waveform) (now fuel : Nat) (t : Tape) :
    (Tape.advance w now fuel t).source = t.source := by
  induction fuel generalizing t with
  | zero => rfl
  | succ fuel ih =>
    rw [Tape.advance]
    split
    · dsimp only
      split
      · rfl
      · exact ih _
    · rfl

@[simp] theorem Tape.update_source (t : Tape) (now : Nat) : (t.update now).source = t.source := by
  unfold Tape.update
  split
  · rfl
  · dsimp only
    split
    · simp
    · split <;> simp

@[simp] theorem Tape.start_source (t : Tape) (now : Nat) : (t.start now).source = t.source := by
  unfold Tape.start
  split
  · rfl
  · dsimp only
    split <;> rfl

@[simp] theorem Tape.pause_source (t : Tape) (now : Nat) : (t.pause now).source = t.source := by
  unfold Tape.pause
  split
  · rfl
  · split
    · dsimp only
      split <;> simp
    · rfl

@[simp] theorem Tape.resume_source (t : Tape) (now : Nat) : (t.resume now).source = t.source := by
  unfold Tape.resume
  split
  · rfl
  · split <;> rfl

@[simp] theorem Tape.rewind_source (t : Tape) : t.rewind.source = t.source := by
  unfold Tape.rewind
  split <;> rfl

theorem Tape.seek_source {t u : Tape} {at_ : Nat} (h : t.seek at_ = some u) : u.source = t.source := by
  unfold Tape.seek at h
  split at h
  · cases h; rfl
  · split at h
    · split at h <;> cases h <;> rfl
    · cases h

/-! ## The tape head (rules R44, R49) -/

/-- The head is on the tape `w`, and on a pulse of it while the tape plays or is paused inside one. -/
structure Tape.HeadOn (w : Waveform) (t : Tape) : Prop where
  cursor : t.cursor ≤ w.pulses.length
  playing : t.playing = true → t.cursor < w.pulses.length
  paused : t.done = false → 0 < t.remaining → t.cursor < w.pulses.length

/-- The tape part of the invariant of a run. -/
def Tape.Ok (t : Tape) : Prop :=
  match t.source with
  | none => t.playing = false
  | some w => t.HeadOn w

theorem Tape.ok_of_some {t : Tape} {w : Waveform} (h : t.source = some w) : t.Ok ↔ t.HeadOn w := by simp [Tape.Ok, h]

theorem Tape.HeadOn.advance {w : Waveform} {t : Tape} (h : t.HeadOn w) (now fuel : Nat) :
    (Tape.advance w now fuel t).HeadOn w := by
  induction fuel generalizing t with
  | zero => exact h
  | succ fuel ih =>
    rw [Tape.advance]
    split
    next hdue =>
      have hc := h.playing (by simp_all)
      dsimp only
      split
      next hend => exact ⟨hc, nofun, nofun⟩
      next hend => exact ih ⟨(Nat.lt_of_not_le hend).le, fun _ => Nat.lt_of_not_le hend, fun _ _ => Nat.lt_of_not_le hend⟩
    next => exact h

theorem Tape.HeadOn.setPosition {w : Waveform} {t : Tape} (h : t.HeadOn w) (p : Nat) :
    ({ t with position := p } : Tape).HeadOn w := ⟨h.cursor, h.playing, h.paused⟩

theorem Tape.Ok.update {t : Tape} (h : t.Ok) (now : Nat) : (t.update now).Ok := by
  cases hs : t.source with
  | none => simpa only [Tape.update, hs] using h
  | some w =>
    rw [Tape.ok_of_some ((t.update_source now).trans hs)]
    have ha := ((Tape.ok_of_some hs).mp h).advance now (w.pulses.length + 1)
    simp only [Tape.update, hs]
    split
    · exact ha.setPosition _
    · split
      · exact ha.setPosition _
      · exact ha

theorem Tape.Ok.start {t : Tape} (h : t.Ok) (now : Nat) : (t.start now).Ok := by
  cases hs : t.source with
  | none => simpa only [Tape.start, hs] using h
  | some w =>
    rw [Tape.ok_of_some ((t.start_source now).trans hs)]
    have hlen := w.durations_length
    simp only [Tape.start, hs]
    split
    next => exact ⟨Nat.zero_le _, nofun, nofun⟩
    next p rest hd =>
      have : 0 < w.pulses.length := by rw [← hlen, hd]; exact Nat.succ_pos _
      exact ⟨Nat.zero_le _, fun _ => this, fun _ _ => this⟩

theorem Tape.Ok.pause {t : Tape} (h : t.Ok) (now : Nat) : (t.pause now).Ok := by
  cases hs : t.source with
  | none => simpa only [Tape.pause, hs] using h
  | some w =>
    rw [Tape.ok_of_some ((t.pause_source now).trans hs)]
    have hu := (Tape.ok_of_some ((t.update_source now).trans hs)).mp (h.update now)
    simp only [Tape.pause, hs]
    split
    · split
      next hp => exact ⟨hu.cursor, nofun, fun _ _ => hu.playing hp⟩
      next => exact hu
    · exact (Tape.ok_of_some hs).mp h

theorem Tape.Ok.resume {t : Tape} (h : t.Ok) (now : Nat) : (t.resume now).Ok := by
  cases hs : t.source with
  | none => simpa only [Tape.resume, hs] using h
  | some w =>
    rw [Tape.ok_of_some ((t.resume_source now).trans hs)]
    have hh := (Tape.ok_of_some hs).mp h
    simp only [Tape.resume, hs]
    split
    next hp =>
      simp only [Bool.and_eq_true, Bool.not_eq_true', decide_eq_true_eq] at hp
      exact ⟨hh.cursor, fun _ => hh.paused hp.1.2 hp.2, nofun⟩
    next => exact hh

theorem Tape.Ok.rewind {t : Tape} (h : t.Ok) : t.rewind.Ok := by
  cases hs : t.source with
  | none => simpa only [Tape.rewind, hs] using h
  | some w =>
    rw [Tape.ok_of_some (t.rewind_source.trans hs)]
    simp only [Tape.rewind, hs]
    exact ⟨Nat.zero_le _, nofun, nofun⟩

/-- The pulse found is one of the list (rule R479). -/
theorem findPulse_lt {t k finish : Nat} : ∀ {ps : List Nat} {from_ before : Nat},
    findPulse t from_ before ps = some (k, finish) → k < from_ + ps.length
  | [], _, _, h => by cases h
  | p :: ps, from_, before, h => by
    rw [findPulse] at h
    split at h
    · cases h
      simp
    · have := findPulse_lt h
      simp only [List.length_cons]
      omega

theorem Tape.Ok.seek {t u : Tape} {at_ : Nat} (h : t.Ok) (hu : t.seek at_ = some u) : u.Ok := by
  cases hs : t.source with
  | none =>
    simp only [Tape.seek, hs, Option.some.injEq] at hu
    exact hu ▸ h
  | some w =>
    rw [Tape.ok_of_some ((Tape.seek_source hu).trans hs)]
    simp only [Tape.seek, hs] at hu
    split at hu
    · split at hu
      next =>
        cases hu
        exact ⟨Nat.le_refl _, nofun, nofun⟩
      next k finish hk =>
        cases hu
        have hlt : k < w.pulses.length := by simpa using findPulse_lt hk
        exact ⟨hlt.le, nofun, fun _ _ => hlt⟩
    · cases hu

/-! ## The recorder's open block (rules R504 .. R506) -/

/-- No recorded transition of an open block lies after `now`. -/
def Recorder.RecordedBy (now : Nat) (r : Recorder) : Prop := r.blockActive = true → r.lastTransitionT ≤ now

theorem Recorder.RecordedBy.micEvent {now t : Nat} {r : Recorder} (h : r.RecordedBy now) (ht : t ≤ now) (l : Bool) :
    (r.micEvent t l).RecordedBy now := by
  unfold Recorder.micEvent
  split
  · exact h
  · split
    · exact fun _ => ht
    · split
      · exact h
      · exact fun _ => ht

theorem Recorder.finalize_blockActive (c : MachineConfig) (r : Recorder) (idle : Nat) :
    (r.finalize c idle).blockActive = false := by
  unfold Recorder.finalize
  dsimp only
  split
  · split <;> rfl
  · rfl

theorem Recorder.RecordedBy.update {now : Nat} {r : Recorder} (h : r.RecordedBy now) (c : MachineConfig) (at_ : Nat)
    (force : Bool) : (r.update c at_ force).RecordedBy now := by
  unfold Recorder.update
  split
  · intro ha
    rw [Recorder.finalize_blockActive] at ha
    cases ha
  · exact h

theorem Recorder.start_blockActive {c : MachineConfig} {disk : Disk} {position : Nat} {r r' : Recorder}
    (h : r.start c disk position = .ok r') : r'.blockActive = false := by
  unfold Recorder.start at h
  split at h
  · cases h
  · split at h
    · cases h
    · cases h; rfl
    · split at h
      · cases h; rfl
      · split at h
        · cases h
        · split at h <;> cases h <;> rfl

theorem Recorder.startAppend_blockActive {c : MachineConfig} {disk : Disk} {r r' : Recorder}
    (h : r.startAppend c disk = .ok r') : r'.blockActive = false := by
  unfold Recorder.startAppend at h
  split at h
  · cases h
  · split at h
    · split at h
      · cases h; rfl
      · split at h
        · cases h
        · split at h <;> cases h
          rfl
    · cases h

/-! ## The beeper ring (rules R433, R436, R437, R445) -/

theorem Beeper.append_ring {b : Beeper} (h : b.ring.length ≤ Config.beeperRingCap) (e : BeeperEvent) :
    (b.append e).ring.length ≤ Config.beeperRingCap := by
  unfold Beeper.append
  have : 0 < Config.beeperRingCap := by decide
  dsimp only
  split <;> simp <;> omega

theorem Beeper.push_ring {b : Beeper} (h : b.ring.length ≤ Config.beeperRingCap) (rate t : Nat) (level : Bool) :
    (b.push rate t level).ring.length ≤ Config.beeperRingCap := by
  unfold Beeper.push
  refine Beeper.append_ring ?_ _
  split
  · exact Nat.zero_le _
  · exact h

theorem popUntil_length (rate limit : Nat) : ∀ (es : List BeeperEvent) (lvl : Bool),
    (popUntil rate limit es lvl).1.length ≤ es.length
  | [], _ => Nat.le_refl _
  | e :: rest, lvl => by
    rw [popUntil]
    split
    · exact (popUntil_length rate limit rest e.level).trans (Nat.le_succ _)
    · exact Nat.le_refl _

theorem Beeper.nextSample_ring (b : Beeper) (rate : Nat) : (b.nextSample rate).2.ring.length ≤ b.ring.length := by
  unfold Beeper.nextSample
  dsimp only
  split <;> split <;> exact popUntil_length ..

end Sys2Proof.Machine
end

section
/-! MainLoop: one iteration and every action of the host keep the invariant of a run, the ROM, the configuration and the
loaded tape (rules R34, R38, R41, R44, R51, R62, R445, R540 .. R546, R615). -/

namespace Sys2Proof.Machine

/-! ## The CPU's part of an iteration (rule R102) -/

/-- A CPU step, halted or not, is the effect of some instruction on what the step's first lines leave. -/
theorem cpuStep_effect {s t : State} (h : s.cpuStep = .next t) : ∃ j, Effect j s.beginStep t := by
  unfold State.cpuStep at h
  dsimp only at h
  split at h
  · cases h
    have idle : Plain s.beginStep s.beginStep.idle :=
      ⟨rfl, rfl, rfl, Nat.zero_le _, fun _ _ => rfl, id, Cpu.system_count _ _ 1⟩
    exact ⟨.nop, idle.effect _⟩
  · split at h
    next i _ => exact ⟨_, effect_of_exec h⟩
    next => cases h

/-- An iteration is a CPU step and, when no fault is set, what follows it (rules R540, R560). -/
theorem iterate_cases {s t : State} (h : s.iterate = .next t) :
    ∃ u, s.cpuStep = .next u ∧
      (u.fault.isSome = true ∧ t = u ∨ u.fault = none ∧ t = u.finishIteration) := by
  unfold State.iterate at h
  split at h
  next u hu =>
    refine ⟨u, hu, ?_⟩
    split at h <;> cases h
    next hf => exact .inl ⟨hf, rfl⟩
    next hf => exact .inr ⟨by simpa using hf, rfl⟩
  next => cases h
  next => cases h

/-! ## What the rest of an iteration reaches (rules R409, R540 .. R545) -/

theorem foldl_applyUlaEvent_eq (q : List UlaEvent) (s : State) :
    q.foldl State.applyUlaEvent s =
      { s with ula := (q.foldl State.applyUlaEvent s).ula, beeper := (q.foldl State.applyUlaEvent s).beeper,
               recorder := (q.foldl State.applyUlaEvent s).recorder } := by
  induction q generalizing s with
  | nil => rfl
  | cons e q ih => exact ih (s.applyUlaEvent e)

theorem State.processEvents_eq (s : State) :
    s.processEvents =
      { s with ula := s.processEvents.ula, beeper := s.processEvents.beeper, recorder := s.processEvents.recorder } := by
  unfold State.processEvents
  dsimp only
  rw [foldl_applyUlaEvent_eq]

theorem State.updateDevices_eq (s : State) :
    s.updateDevices =
      { s with ula := s.processEvents.ula, beeper := s.processEvents.beeper,
               recorder := s.processEvents.recorder.update s.config s.clock false, tape := s.tape.update s.clock } := by
  unfold State.updateDevices
  dsimp only
  rw [State.processEvents_eq]

/-- The frame boundary touches the CPU, memory and the counters. -/
theorem State.frameBoundary_eq (s : State) :
    s.frameBoundary =
      { s with cpu := s.frameBoundary.cpu, mem := s.frameBoundary.mem, clock := s.frameBoundary.clock,
               frameAcc := s.frameBoundary.frameAcc, framesPresented := s.frameBoundary.framesPresented } := by
  unfold State.frameBoundary State.frameInterrupt
  split
  · dsimp only
    split
    · rw [State.interrupt_eq]
      rfl
    · rfl
  · rfl

/-- What holds of a state and is kept by an interrupt and by the counters of the main loop is kept by the frame
boundary. -/
theorem State.frameBoundary_induction {P : State → Prop} (s : State) (h : P s)
    (counters : ∀ u clock frameAcc frames, P u → u.clock ≤ clock →
      P { u with clock := clock, frameAcc := frameAcc, framesPresented := frames })
    (interrupt : ∀ u data, P u → P (u.interrupt data).1) : P s.frameBoundary := by
  unfold State.frameBoundary State.frameInterrupt
  split
  · have h0 := counters s s.clock (s.frameAcc - Config.frameTStates) s.framesPresented h (Nat.le_refl _)
    dsimp only
    split
    · have h1 := interrupt _ Config.intDataByte h0
      exact counters (State.interrupt _ Config.intDataByte).1 _ _ _ h1 (Nat.le_add_right _ _)
    · exact counters _ _ _ _ h0 (Nat.le_refl _)
  · exact h

/-! ## ROM, configuration and loaded tape -/

/-- ROM reads as before, and configuration and loaded tape are the same. -/
structure SameMedia (s t : State) : Prop where
  rom : ∀ a, a < Config.romSize → t.mem.get a = s.mem.get a
  config : t.config = s.config
  source : t.tape.source = s.tape.source

theorem SameMedia.refl (s : State) : SameMedia s s := ⟨fun _ _ => rfl, rfl, rfl⟩

/-- What leaves memory and the configuration alone and keeps the loaded tape. -/
theorem SameMedia.of_mem {s t : State} (hm : t.mem = s.mem) (hc : t.config = s.config)
    (hs : t.tape.source = s.tape.source) : SameMedia s t := ⟨fun a _ => by rw [hm], hc, hs⟩

theorem SameMedia.trans {s t u : State} (h : SameMedia s t) (k : SameMedia t u) : SameMedia s u :=
  ⟨fun a ha => (k.rom a ha).trans (h.rom a ha), k.config.trans h.config, k.source.trans h.source⟩

theorem sameMedia_interrupt (s : State) (data : Byte) : SameMedia s (s.interrupt data).1 := by
  rw [State.interrupt_eq]
  exact ⟨fun a ha => by simp [State.push16_get_rom _ ha], rfl, rfl⟩

theorem sameMedia_finishIteration (s : State) : SameMedia s s.finishIteration := by
  refine State.frameBoundary_induction _ ?_ (fun u _ _ _ h _ => h.trans (.of_mem rfl rfl rfl))
    (fun u data h => h.trans (sameMedia_interrupt u data))
  rw [State.updateDevices_eq]
  exact .of_mem rfl rfl (Tape.update_source ..)

theorem sameMedia_iterate {s t : State} (h : s.iterate = .next t) : SameMedia s t := by
  obtain ⟨u, hu, hcase⟩ := iterate_cases h
  obtain ⟨j, e⟩ := cpuStep_effect hu
  have hsu : SameMedia s u := ⟨e.rom, by rw [e.frame]; rfl, by rw [e.frame]; rfl⟩
  obtain ⟨-, rfl⟩ | ⟨-, rfl⟩ := hcase
  · exact hsu
  · exact hsu.trans (sameMedia_finishIteration u)

theorem sameMedia_recordStop (s : State) : SameMedia s s.recordStop := by
  rw [State.recordStop_frame]
  exact .of_mem rfl rfl rfl

theorem sameMedia_act {s t : State} {e : HostEvent} (h : s.act e = .next t) : SameMedia s t := by
  cases e with
  | iterate => exact sameMedia_iterate h
  | audioSample =>
    cases h
    unfold State.audioSample
    split <;> exact .of_mem rfl rfl rfl
  | setKey row column pressed => cases h; exact .of_mem rfl rfl rfl
  | tapeStart => cases h; exact .of_mem rfl rfl (Tape.start_source ..)
  | tapePause => cases h; exact .of_mem rfl rfl (Tape.pause_source ..)
  | tapeResume => cases h; exact .of_mem rfl rfl (Tape.resume_source ..)
  | tapeRewind => cases h; exact .of_mem rfl rfl (Tape.rewind_source _)
  | tapeSeek at_ =>
    cases h
    unfold State.tapeSeek
    split
    next u hu => exact .of_mem rfl rfl (Tape.seek_source hu)
    next => exact .of_mem rfl rfl rfl
  | recordStart | recordStartAppend =>
    cases h
    unfold State.recordStarted
    split <;> exact .of_mem rfl rfl rfl
  | recordStop => cases h; exact sameMedia_recordStop s
  | shutdown =>
    cases h
    unfold State.shutdownNow
    dsimp only
    split
    · exact (sameMedia_recordStop s).trans (SameMedia.of_mem rfl rfl (Tape.pause_source ..))
    · exact .of_mem rfl rfl (Tape.pause_source ..)

/-- A step that answers is an iteration, or the next action of the schedule (rules R540, R546). -/
theorem step_cases {s t : State} (h : step s = .next t) :
    s.fault = none ∧ (s.iterate = .next t ∨ ∃ e rest, ({ s with schedule := rest } : State).act e = .next t) := by
  unfold step at h
  split at h
  · cases h
  · split at h
    · cases h
    next hf =>
      refine ⟨hf, ?_⟩
      split at h
      next => exact .inl h
      next e rest _ => exact .inr ⟨e, rest, h⟩

/-- Settles O17: every part of a step is a change of the same media. -/
theorem romConfigAndTapeFixed : Obligations.RomConfigAndTapeFixed := by
  intro s t h
  have media : SameMedia s t := by
    obtain ⟨-, hi | ⟨e, rest, ha⟩⟩ := step_cases h
    · exact sameMedia_iterate hi
    · exact .trans (t := { s with schedule := rest }) (.of_mem rfl rfl rfl) (sameMedia_act ha)
  exact ⟨media.rom, media.config, media.source⟩

/-! ## The invariant of a run -/

/-- The invariant inside an iteration: the ULA queue may hold events, none of them, no stamp and no recorded transition
after `now`. -/
structure State.Pending (now : Nat) (s : State) : Prop where
  mem : s.mem.wf = true
  iff : s.cpu.iff1 = s.cpu.iff2
  events : ∀ e ∈ s.ula.queue, e.tState ≤ now
  stamp : s.ula.lastT ≤ now
  ring : s.beeper.ring.length ≤ Config.beeperRingCap
  recorded : s.recorder.RecordedBy now
  tape : s.tape.Ok
  pulses : ∀ w, s.tape.source = some w → ∀ p ∈ w.pulses, p ≠ 0#32

theorem State.inv_iff (s : State) : s.Inv ↔ s.Pending s.clock ∧ s.ula.queue = [] := by
  constructor
  · intro h
    refine ⟨⟨h.mem, h.iff, by simp [h.queue], h.stamp, h.ring, h.recorded, ?_, h.pulses⟩, h.queue⟩
    cases hs : s.tape.source with
    | none => simpa [Tape.Ok, hs] using h.noTape hs
    | some w =>
      obtain ⟨hc, hp, hr⟩ := h.tape w hs
      exact (Tape.ok_of_some hs).mpr ⟨hc, hp, hr⟩
  · rintro ⟨h, hq⟩
    refine ⟨h.mem, h.iff, hq, h.stamp, h.ring, h.recorded, fun w hs => ?_, h.pulses, fun hs => ?_⟩
    · obtain ⟨hc, hp, hr⟩ := (Tape.ok_of_some hs).mp h.tape
      exact ⟨hc, hp, hr⟩
    · simpa [Tape.Ok, hs] using h.tape

theorem State.Pending.mono {now now' : Nat} {s : State} (h : s.Pending now) (hle : now ≤ now') : s.Pending now' :=
  { h with
    events := fun e he => (h.events e he).trans hle
    stamp := h.stamp.trans hle
    recorded := fun ha => (h.recorded ha).trans hle }

/-- The first lines of a step keep the invariant: a pending EI sets both flip-flops (rule R31). -/
theorem State.Inv.beginStep {s : State} (h : s.Inv) : s.beginStep.Inv :=
  { h with
    iff := by
      unfold State.beginStep
      dsimp only
      split
      · rfl
      · exact h.iff }

/-- A write to the queue leaves no event after its stamp (rule R406). -/
theorem Ula.enqueue_events {u : Ula} {v : Byte} {stamp now : Nat} (hq : ∀ e ∈ u.queue, e.tState ≤ now)
    (hl : u.lastT ≤ now) (hs : stamp ≤ now) : ∀ e ∈ (u.enqueue v stamp).queue, e.tState ≤ now := by
  intro e he
  simp only [Ula.enqueue, List.mem_append, List.mem_singleton] at he
  rcases he with he | rfl
  · refine hq e ?_
    split at he
    · exact List.mem_of_mem_drop he
    · exact he
  · exact max_le hs hl

/-- A CPU step ends with the invariant of the middle of an iteration, at the time the clock is going to show. -/
theorem State.Inv.cpuStep {s t : State} (h : s.Inv) (ht : s.cpuStep = .next t) :
    t.Pending (t.clock + t.cursor.t) ∧ (t.fault ≠ s.fault → t.ula = s.ula) := by
  obtain ⟨j, e⟩ := cpuStep_effect ht
  obtain ⟨hb, hq⟩ := (State.inv_iff _).mp h.beginStep
  have hclock : t.clock = s.clock := by rw [e.frame]; rfl
  have htape : t.tape = s.tape := by rw [e.frame]; rfl
  have hring : t.beeper = s.beeper := by rw [e.frame]; rfl
  have hrec : t.recorder = s.recorder := by rw [e.frame]; rfl
  have hle : s.clock ≤ t.clock + t.cursor.t := by omega
  have hports : (∀ e ∈ t.ula.queue, e.tState ≤ t.clock + t.cursor.t) ∧ t.ula.lastT ≤ t.clock + t.cursor.t := by
    rcases e.port with hu | ⟨-, v, stamp, lo, hi, hu⟩
    · rw [hu]
      exact ⟨(hb.mono hle).events, (hb.mono hle).stamp⟩
    · have hi' : stamp ≤ t.clock + t.cursor.t := by
        rw [hclock]
        exact hi.le
      rw [hu]
      exact ⟨Ula.enqueue_events (hb.mono hle).events (hb.mono hle).stamp hi', max_le hi' (hb.mono hle).stamp⟩
  refine ⟨⟨e.wf hb.mem, e.system.agree hb.iff, hports.1, hports.2, ?_, ?_, ?_, ?_⟩, fun hf => ?_⟩
  · rw [hring]; exact h.ring
  · rw [hrec]; exact fun ha => (h.recorded ha).trans hle
  · rw [htape]; exact hb.tape
  · rw [htape]; exact h.pulses
  · rcases e.port with hu | ⟨hk, -⟩
    · exact hu
    · exact absurd hk hf

/-! ### `process_events` (rule R409) -/

theorem State.Pending.applyUlaEvent {now : Nat} {s : State} (h : s.Pending now) {e : UlaEvent} (he : e.tState ≤ now) :
    (s.applyUlaEvent e).Pending now :=
  { h with
    ring := by
      unfold State.applyUlaEvent
      dsimp only
      split
      · exact Beeper.push_ring h.ring ..
      · exact h.ring
    recorded := h.recorded.micEvent he _ }

theorem State.Pending.foldl_applyUlaEvent {now : Nat} : ∀ {q : List UlaEvent} {s : State}, s.Pending now →
    (∀ e ∈ q, e.tState ≤ now) → (q.foldl State.applyUlaEvent s).Pending now
  | [], _, h, _ => h
  | e :: _, _, h, hq =>
    (h.applyUlaEvent (hq e List.mem_cons_self)).foldl_applyUlaEvent fun e' he' => hq e' (List.mem_cons_of_mem _ he')

theorem State.Pending.processEvents {now : Nat} {s : State} (h : s.Pending now) : s.processEvents.Pending now :=
  { h.foldl_applyUlaEvent h.events with events := nofun }

theorem State.Pending.updateDevices {now : Nat} {s : State} (h : s.Pending now) : s.updateDevices.Pending now :=
  { h.processEvents with
    recorded := h.processEvents.recorded.update _ _ _
    tape := h.processEvents.tape.update _
    pulses := by
      intro w hw
      exact h.processEvents.pulses w ((Tape.update_source ..).symm.trans hw) }

theorem State.Inv.interrupt {s : State} (h : s.Inv) (data : Byte) : (s.interrupt data).1.Inv := by
  rw [State.interrupt_eq]
  exact { h with mem := State.push16_wf _ (s := s.setPc _) h.mem, iff := rfl }

theorem State.Inv.later {s : State} (h : s.Inv) {clock : Nat} (hle : s.clock ≤ clock) (frameAcc frames : Nat) :
    ({ s with clock := clock, frameAcc := frameAcc, framesPresented := frames } : State).Inv :=
  { h with stamp := h.stamp.trans hle, recorded := fun ha => (h.recorded ha).trans hle }

theorem State.Pending.finishIteration {s : State} (h : s.Pending (s.clock + s.cursor.t)) : s.finishIteration.Inv := by
  refine State.frameBoundary_induction _ ?_ (fun u _ _ _ hu hle => hu.later hle _ _) (fun u data hu => hu.interrupt data)
  have hadv : (s.advance s.cursor.t).Pending (s.clock + s.cursor.t) := { h with }
  have hclock : (s.advance s.cursor.t).updateDevices.clock = s.clock + s.cursor.t := by
    rw [State.updateDevices_eq]
    rfl
  exact (State.inv_iff _).mpr ⟨hclock ▸ hadv.updateDevices, rfl⟩

theorem State.Inv.iterate {s t : State} (h : s.Inv) (hf : s.fault = none) (ht : s.iterate = .next t) : t.Inv := by
  obtain ⟨u, hu, hcase⟩ := iterate_cases ht
  obtain ⟨hp, hula⟩ := h.cpuStep hu
  obtain ⟨hfault, rfl⟩ | ⟨-, rfl⟩ := hcase
  · obtain ⟨j, e⟩ := cpuStep_effect hu
    have hsame : t.ula = s.ula := hula (by rw [hf]; exact Option.isSome_iff_ne_none.mp hfault)
    have hclock : t.clock = s.clock := by rw [e.frame]; rfl
    have hrec : t.recorder = s.recorder := by rw [e.frame]; rfl
    refine (State.inv_iff t).mpr ⟨{ hp with events := ?_, stamp := ?_, recorded := ?_ }, by rw [hsame]; exact h.queue⟩
    · simp [hsame, h.queue]
    · rw [hsame, hclock]; exact h.stamp
    · rw [hrec, hclock]; exact h.recorded
  · exact hp.finishIteration

/-! ### The actions of the host and of the audio consumer (rules R437, R546, R549) -/

/-- A tape operation that keeps the head on the loaded tape keeps the invariant. -/
theorem State.Inv.setTape {s : State} (h : s.Inv) {t : Tape} (hok : t.Ok) (hs : t.source = s.tape.source) :
    ({ s with tape := t } : State).Inv := by
  obtain ⟨hp, hq⟩ := (State.inv_iff s).mp h
  exact (State.inv_iff _).mpr ⟨{ hp with tape := hok, pulses := fun w hw => h.pulses w (hs.symm.trans hw) }, hq⟩

theorem State.Inv.tapeOk {s : State} (h : s.Inv) : s.tape.Ok := ((State.inv_iff s).mp h).1.tape

theorem State.Inv.setRecorder {s : State} (h : s.Inv) {r : Recorder} (hr : r.RecordedBy s.clock) :
    ({ s with recorder := r } : State).Inv := { h with recorded := hr }

theorem State.Inv.recordStarted {s : State} (h : s.Inv) {r : Except HostError Recorder}
    (hr : ∀ rec, r = .ok rec → rec.blockActive = false) : (s.recordStarted r).Inv := by
  cases r with
  | ok rec => exact { h.setRecorder (r := rec) (fun ha => absurd ha (by simp [hr rec rfl])) with }
  | error e => exact { h with }

theorem State.recordStop_recorder (s : State) :
    s.recordStop.recorder = (s.recorder.update s.config s.clock true).ended := by
  unfold State.recordStop
  dsimp only
  split
  · split <;> rfl
  · rfl

theorem State.Inv.recordStop {s : State} (h : s.Inv) : s.recordStop.Inv := by
  have hr : s.recordStop.recorder.RecordedBy s.clock := by
    rw [State.recordStop_recorder]
    exact Recorder.RecordedBy.update h.recorded _ _ _
  rw [State.recordStop_frame]
  exact { h.setRecorder hr with }

theorem State.Inv.act {s t : State} {e : HostEvent} (h : s.Inv) (hf : s.fault = none) (ht : s.act e = .next t) : t.Inv := by
  cases e with
  | iterate => exact h.iterate hf ht
  | audioSample =>
    cases ht
    unfold State.audioSample
    split
    · exact { h with ring := (Beeper.nextSample_ring ..).trans h.ring }
    · exact h
  | setKey row column pressed => cases ht; exact { h with }
  | tapeStart => cases ht; exact { h.setTape (h.tapeOk.start _) (Tape.start_source ..) with }
  | tapePause => cases ht; exact { h.setTape (h.tapeOk.pause _) (Tape.pause_source ..) with }
  | tapeResume => cases ht; exact { h.setTape (h.tapeOk.resume _) (Tape.resume_source ..) with }
  | tapeRewind => cases ht; exact { h.setTape h.tapeOk.rewind (Tape.rewind_source _) with }
  | tapeSeek at_ =>
    cases ht
    unfold State.tapeSeek
    split
    next u hu => exact { h.setTape (h.tapeOk.seek hu) (Tape.seek_source hu) with }
    next => exact { h with }
  | recordStart => cases ht; exact h.recordStarted fun _ => Recorder.start_blockActive
  | recordStartAppend => cases ht; exact h.recordStarted fun _ => Recorder.startAppend_blockActive
  | recordStop => cases ht; exact h.recordStop
  | shutdown =>
    cases ht
    unfold State.shutdownNow
    dsimp only
    split
    · exact { h.recordStop.setTape (h.recordStop.tapeOk.pause _) (Tape.pause_source ..) with }
    · exact { h.setTape (h.tapeOk.pause _) (Tape.pause_source ..) with }

/-- Settles O15: an iteration and every action of the outside world keep the invariant. -/
theorem invariantKept : Obligations.InvariantKept := by
  intro s t h ht
  obtain ⟨hf, hi | ⟨e, rest, ha⟩⟩ := step_cases ht
  · exact h.iterate hf hi
  · exact State.Inv.act (s := { s with schedule := rest }) { h with } hf ha

/-! ## A halted machine (rules R33, R102, R357, R572) -/

/-- What a halted step leaves: a pending EI taken, R counted once, 4 T-states, nothing fetched. -/
def State.idled (s : State) : State :=
  { s with
    cpu := { s.cpu with r := incR s.cpu.r, iff1 := s.cpu.iff1 || s.cpu.eiDelay,
                        iff2 := s.cpu.iff2 || s.cpu.eiDelay, eiDelay := false }
    cursor := { tBase := s.clock, t := 4, start := s.cpu.pc, lastXy := none } }

theorem cpuStep_halted {s : State} (h : s.cpu.halted = true) : s.cpuStep = .next s.idled := by
  cases hei : s.cpu.eiDelay <;> simp [State.cpuStep, State.beginStep, State.idle, State.idled, h, hei]

theorem iterate_halted {s : State} (h : s.cpu.halted = true) (hf : s.fault = none) :
    s.iterate = .next s.idled.finishIteration := by
  have hf' : s.idled.fault.isSome = false := by simp [State.idled, hf]
  simp [State.iterate, cpuStep_halted h, hf']

/-- With nothing queued, a running machine's step is an iteration (rule R540). -/
theorem step_eq_iterate {s : State} (h : s.running) (hs : s.schedule = []) : step s = s.iterate := by
  simp [step, h.1, h.2, hs]

theorem interrupt_halted (s : State) (data : Byte) : (s.interrupt data).1.cpu.halted = false := by
  rw [State.interrupt_eq]

/-- The rest of an iteration changes the CPU by the interrupt of a frame boundary alone, and that wakes it (rules R543,
R563, R566). -/
theorem finishIteration_cpu (s : State) :
    if Config.frameTStates ≤ s.frameAcc + s.cursor.t ∧ s.cpu.iff1 = true then s.finishIteration.cpu.halted = false
    else s.finishIteration.cpu = s.cpu := by
  have hcpu : (s.advance s.cursor.t).updateDevices.cpu = s.cpu := by rw [State.updateDevices_eq]; rfl
  have hacc : (s.advance s.cursor.t).updateDevices.frameAcc = s.frameAcc + s.cursor.t := by
    rw [State.updateDevices_eq]; rfl
  unfold State.finishIteration State.frameBoundary State.frameInterrupt
  simp only [hcpu, hacc]
  by_cases hb : Config.frameTStates ≤ s.frameAcc + s.cursor.t
  · by_cases hi : s.cpu.iff1 = true
    · simp only [hb, hi, and_self, if_true]
      exact interrupt_halted _ _
    · simp [hb, hi]
  · simp [hb, hcpu]

/-- Settles O7: a halted step, and the one thing after it that touches the CPU. -/
theorem haltedStep : Obligations.HaltedStep := by
  constructor
  · intro s hr hs h
    exact (step_eq_iterate hr hs).trans (iterate_halted h hr.2)
  · intro s t h hf ht
    cases (iterate_halted h hf).symm.trans ht
    have hiff : s.idled.cpu.iff1 = true ↔ s.cpu.iff1 = true ∨ s.cpu.eiDelay = true := by simp [State.idled]
    have hcond : Config.frameTStates ≤ s.idled.frameAcc + s.idled.cursor.t ∧ s.idled.cpu.iff1 = true ↔
        Config.frameTStates ≤ s.frameAcc + 4 ∧ (s.cpu.iff1 = true ∨ s.cpu.eiDelay = true) := and_congr_right' hiff
    have hcpu := finishIteration_cpu s.idled
    rw [← hcond]
    split at hcpu
    next hwake => simp [hcpu, hwake]
    next hsleep =>
      have hhalted : s.idled.cpu.halted = true := h
      exact ⟨iff_of_false (by simp [hcpu, hhalted]) hsleep, fun _ => by rw [hcpu]; rfl⟩

end Sys2Proof.Machine
end

section
/-! Playback: updating the tape is a ratchet, and from a start the head is where the elapsed time puts it (rules R44, R470,
R480, R482). -/

namespace Sys2Proof.Machine

/-! ## The loop of due transitions (rule R480) -/

/-- The head at the start of the pulse behind the one it is on. -/
def Tape.nextPulse (w : Waveform) (t : Tape) : Tape :=
  { t with earLevel := !t.earLevel, cursor := t.cursor + 1,
           nextTransition := t.nextTransition + w.durations.getD (t.cursor + 1) 0 }

/-- One more due transition: the level and the cursor move on, and the head stops behind the last pulse. -/
theorem Tape.advance_due {w : Waveform} {now fuel : Nat} {t : Tape} (hp : t.playing = true)
    (hn : t.nextTransition ≤ now) :
    Tape.advance w now (fuel + 1) t =
      if w.pulses.length ≤ t.cursor + 1 then
        { t with earLevel := !t.earLevel, cursor := t.cursor + 1, playing := false, done := true }
      else
        Tape.advance w now fuel (t.nextPulse w) := by
  simp [Tape.advance, hp, hn, Tape.nextPulse]

/-- With nothing due the loop ends. -/
theorem Tape.advance_idle {w : Waveform} {now : Nat} {t : Tape} (h : ¬(t.playing = true ∧ t.nextTransition ≤ now)) :
    ∀ fuel, Tape.advance w now fuel t = t
  | 0 => rfl
  | _ + 1 => by simp only [Tape.advance, Bool.and_eq_true, decide_eq_true_eq, if_neg h]

/-- Fuel for every pulse that is left, and one more, is enough for all due transitions. -/
theorem Tape.advance_settled {w : Waveform} {now : Nat} : ∀ {fuel : Nat} {t : Tape}, w.pulses.length - t.cursor < fuel →
    ¬((Tape.advance w now fuel t).playing = true ∧ (Tape.advance w now fuel t).nextTransition ≤ now)
  | fuel + 1, t, hf => by
    by_cases hdue : t.playing = true ∧ t.nextTransition ≤ now
    · rw [Tape.advance_due hdue.1 hdue.2]
      split
      next => simp
      next => exact Tape.advance_settled (by simp only [Tape.nextPulse]; omega)
    · rwa [Tape.advance_idle hdue]

/-- More fuel than enough makes no difference. -/
theorem Tape.advance_fuel {w : Waveform} {now : Nat} : ∀ {f g : Nat} {t : Tape}, w.pulses.length - t.cursor < f →
    w.pulses.length - t.cursor < g → Tape.advance w now f t = Tape.advance w now g t
  | f + 1, g + 1, t, hf, hg => by
    by_cases hdue : t.playing = true ∧ t.nextTransition ≤ now
    · rw [Tape.advance_due hdue.1 hdue.2, Tape.advance_due hdue.1 hdue.2]
      split
      next => rfl
      next => exact Tape.advance_fuel (by simp only [Tape.nextPulse]; omega) (by simp only [Tape.nextPulse]; omega)
    · rw [Tape.advance_idle hdue, Tape.advance_idle hdue]

/-- The transitions due at `a` are the first of those due at a later `b`. -/
theorem Tape.advance_advance {w : Waveform} {a b : Nat} (hab : a ≤ b) : ∀ {f g k : Nat} {t : Tape},
    w.pulses.length - t.cursor < g → w.pulses.length - t.cursor < k →
    Tape.advance w b g (Tape.advance w a f t) = Tape.advance w b k t
  | 0, _, _, _, hg, hk => Tape.advance_fuel hg hk
  | f + 1, g, k + 1, t, hg, hk => by
    by_cases hdue : t.playing = true ∧ t.nextTransition ≤ a
    · rw [Tape.advance_due hdue.1 hdue.2, Tape.advance_due hdue.1 (hdue.2.trans hab)]
      split
      next => exact Tape.advance_idle (by simp) g
      next => exact Tape.advance_advance hab (by simp only [Tape.nextPulse]; omega) (by simp only [Tape.nextPulse]; omega)
    · rw [Tape.advance_idle hdue]
      exact Tape.advance_fuel hg hk

/-- The loop does not look at the position. -/
theorem Tape.advance_setPosition (w : Waveform) (now p : Nat) : ∀ (fuel : Nat) (t : Tape),
    Tape.advance w now fuel { t with position := p } = { Tape.advance w now fuel t with position := p }
  | 0, _ => rfl
  | fuel + 1, t => by
    by_cases hdue : t.playing = true ∧ t.nextTransition ≤ now
    · rw [Tape.advance_due (t := { t with position := p }) hdue.1 hdue.2, Tape.advance_due hdue.1 hdue.2]
      split
      next => rfl
      next => exact Tape.advance_setPosition w now p fuel (t.nextPulse w)
    · rw [Tape.advance_idle (t := { t with position := p }) hdue, Tape.advance_idle hdue]

/-- A playing tape goes on playing or is done. -/
theorem Tape.advance_playing_or_done {w : Waveform} {now : Nat} : ∀ {fuel : Nat} {t : Tape}, t.playing = true →
    (Tape.advance w now fuel t).playing = true ∨ (Tape.advance w now fuel t).done = true
  | 0, _, h => .inl h
  | fuel + 1, t, h => by
    by_cases hn : t.nextTransition ≤ now
    · rw [Tape.advance_due h hn]
      split
      next => exact .inr rfl
      next => exact Tape.advance_playing_or_done h
    · rw [Tape.advance_idle (by simp [hn])]
      exact .inl h

/-! ## The update (rules R480, R482) -/

/-- The position an update leaves (rule R482). -/
def Tape.positionAt (w : Waveform) (now : Nat) (t : Tape) : Nat :=
  if t.playing then w.cum (t.cursor + 1) - (t.nextTransition - now)
  else if t.done then w.cum w.pulses.length
  else t.position

theorem Tape.update_eq {t : Tape} {w : Waveform} (h : t.source = some w) (now : Nat) :
    t.update now =
      { Tape.advance w now (w.pulses.length + 1) t with
        position := (Tape.advance w now (w.pulses.length + 1) t).positionAt w now } := by
  simp only [Tape.update, h, Tape.positionAt]
  split
  · rfl
  · split <;> rfl

theorem Tape.positionAt_setPosition {w : Waveform} {now p : Nat} {t : Tape} (h : t.playing = true ∨ t.done = true) :
    ({ t with position := p } : Tape).positionAt w now = t.positionAt w now := by
  unfold Tape.positionAt
  rcases h with h | h <;> simp [h]

/-- Updating at `a` and then at a later `b` is updating at `b`. -/
theorem Tape.update_update (t : Tape) {a b : Nat} (hab : a ≤ b) : (t.update a).update b = t.update b := by
  cases hs : t.source with
  | none =>
    have hid : ∀ now, t.update now = t := fun now => by simp only [Tape.update, hs]
    rw [hid, hid]
  | some w =>
    have hlt : w.pulses.length - t.cursor < w.pulses.length + 1 := by omega
    rw [Tape.update_eq ((t.update_source a).trans hs), Tape.update_eq hs b, Tape.update_eq hs a,
      Tape.advance_setPosition, Tape.advance_advance hab (by omega) hlt]
    by_cases hb : (Tape.advance w b (w.pulses.length + 1) t).playing = true ∨
        (Tape.advance w b (w.pulses.length + 1) t).done = true
    · rw [Tape.positionAt_setPosition hb]
    · have hstop : ¬ t.playing = true := fun hp => hb (Tape.advance_playing_or_done hp)
      rw [Tape.advance_idle (fun hn => hstop hn.1)] at hb ⊢
      rw [Tape.advance_idle (fun hn => hstop hn.1)]
      rw [not_or, Bool.not_eq_true, Bool.not_eq_true] at hb
      simp [Tape.positionAt, hb]

/-! ## From a start (rules R44, R470) -/

theorem Waveform.cum_succ (w : Waveform) (k : Nat) : w.cum (k + 1) = w.cum k + w.durations.getD k 0 := by
  unfold Waveform.cum
  rw [List.take_add_one, List.sum_append, List.getD_eq_getElem?_getD]
  cases w.durations[k]? <;> simp

theorem Waveform.cum_mono (w : Waveform) : Monotone w.cum :=
  monotone_nat_of_le_succ fun k => by rw [w.cum_succ]; exact Nat.le_add_right _ _

/-- How many of the first `len` numbers lie below `n`. -/
theorem length_filter_range_lt {p : Nat → Bool} {n : Nat} : ∀ {len : Nat}, n ≤ len → (∀ k, k < len → (p k = true ↔ k < n)) →
    ((List.range len).filter p).length = n
  | 0, hn, _ => by simp at hn; simp [hn]
  | len + 1, hn, hp => by
    have hlast := hp len (Nat.lt_succ_self len)
    rw [List.range_succ, List.filter_append, List.length_append]
    by_cases h : len < n
    · have hall : ∀ k, k < len → (p k = true ↔ k < len) := fun k hk =>
        iff_of_true ((hp k (by omega)).mpr (by omega)) hk
      rw [length_filter_range_lt (Nat.le_refl len) hall]
      simp [hlast.mpr h]
      omega
    · rw [length_filter_range_lt (by omega) (fun k hk => hp k (by omega))]
      simp [show p len = false by simpa [h] using hlast]

/-- Where the head is when every transition it has made was due by `now`: playing inside a pulse, or done behind the
last. -/
structure Tape.PlayedTo (w : Waveform) (start now : Nat) (t : Tape) : Prop where
  level : t.earLevel = (w.initialLevel ^^ decide (t.cursor % 2 = 1))
  passed : start + w.cum t.cursor ≤ now
  phase : (t.playing = true ∧ t.done = false ∧ t.cursor < w.pulses.length ∧
      t.nextTransition = start + w.cum (t.cursor + 1)) ∨
    (t.playing = false ∧ t.done = true ∧ t.cursor = w.pulses.length)

theorem level_succ (l : Bool) (k : Nat) : (!(l ^^ decide (k % 2 = 1))) = (l ^^ decide ((k + 1) % 2 = 1)) := by
  rcases Nat.mod_two_eq_zero_or_one k with h | h <;> simp [Nat.add_mod, h]

theorem Tape.PlayedTo.advance {w : Waveform} {start now : Nat} : ∀ {fuel : Nat} {t : Tape}, t.PlayedTo w start now →
    (Tape.advance w now fuel t).PlayedTo w start now
  | 0, _, h => h
  | fuel + 1, t, h => by
    by_cases hdue : t.playing = true ∧ t.nextTransition ≤ now
    · obtain ⟨-, hd, hc, hn⟩ | ⟨hp, -⟩ := h.phase
      · have hlevel : (!t.earLevel) = (w.initialLevel ^^ decide ((t.cursor + 1) % 2 = 1)) := by
          rw [h.level, level_succ]
        have hpassed : start + w.cum (t.cursor + 1) ≤ now := hn ▸ hdue.2
        rw [Tape.advance_due hdue.1 hdue.2]
        split
        next hend => exact ⟨hlevel, hpassed, .inr ⟨rfl, rfl, by dsimp only; omega⟩⟩
        next hend =>
          refine Tape.PlayedTo.advance ⟨hlevel, hpassed, .inl ⟨hdue.1, hd, by simp only [Tape.nextPulse]; omega, ?_⟩⟩
          simp only [Tape.nextPulse, hn, w.cum_succ (t.cursor + 1), Nat.add_assoc]
      · rw [hp] at hdue
        cases hdue.1
    · rwa [Tape.advance_idle hdue]

/-- A start puts the head on the first pulse (rule R470). -/
theorem Tape.PlayedTo.start {t : Tape} {w : Waveform} {start now : Nat} (hs : t.source = some w) (hw : w.pulses ≠ [])
    (hle : start ≤ now) : (t.start start).PlayedTo w start now := by
  have hpos : 0 < w.pulses.length := List.length_pos_iff.mpr hw
  unfold Tape.start
  simp only [hs]
  split
  next hd =>
    rw [← w.durations_length, hd] at hpos
    cases hpos
  next p rest hd =>
    refine ⟨by simp, by simpa [Waveform.cum] using hle, .inl ⟨rfl, rfl, hpos, ?_⟩⟩
    simp [Waveform.cum, hd]

/-- The number of pulses that have ended is where the head is. -/
theorem Tape.PlayedTo.ended_eq {w : Waveform} {start now : Nat} {t : Tape} (h : t.PlayedTo w start now)
    (hset : ¬(t.playing = true ∧ t.nextTransition ≤ now)) :
    ((List.range w.pulses.length).filter (fun k => decide (start + w.cum (k + 1) ≤ now))).length = t.cursor := by
  have hle : t.cursor ≤ w.pulses.length := by
    obtain ⟨-, -, hc, -⟩ | ⟨-, -, hc⟩ := h.phase <;> omega
  refine length_filter_range_lt hle fun k hk => ?_
  rw [decide_eq_true_eq]
  have hpassed := h.passed
  constructor
  · intro hk'
    by_contra hge
    obtain ⟨hp, -, -, hn⟩ | ⟨-, -, hc⟩ := h.phase
    · have := w.cum_mono (show t.cursor + 1 ≤ k + 1 by omega)
      exact hset ⟨hp, by omega⟩
    · omega
  · intro hlt
    have := w.cum_mono (show k + 1 ≤ t.cursor by omega)
    omega

/-- Settles O56: the ratchet by `Tape.update_update`, the closed form from where the head is after a start. -/
theorem tapePlayback : Obligations.TapePlayback := by
  refine ⟨fun t a b => t.update_update, fun t w start now hs hw => ?_⟩
  intro ended u _ hle
  have hsrc : (t.start start).source = some w := (t.start_source start).trans hs
  obtain ⟨v, hv⟩ : ∃ v, v = Tape.advance w now (w.pulses.length + 1) (t.start start) := ⟨_, rfl⟩
  have hu : u = { v with position := v.positionAt w now } := by rw [hv]; exact Tape.update_eq hsrc now
  have hplayed : v.PlayedTo w start now := hv ▸ (Tape.PlayedTo.start hs hw hle).advance
  have hset : ¬(v.playing = true ∧ v.nextTransition ≤ now) := hv ▸ Tape.advance_settled (by omega)
  have hended : ended = v.cursor := hplayed.ended_eq hset
  rw [hended, hu]
  refine ⟨rfl, hplayed.level, ?_⟩
  have hpassed := hplayed.passed
  obtain ⟨hp, hd, hc, hn⟩ | ⟨hp, hd, hc⟩ := hplayed.phase
  · have hnow : now < v.nextTransition := Nat.lt_of_not_le fun hle' => hset ⟨hp, hle'⟩
    have hlast := w.cum_mono (show v.cursor + 1 ≤ w.pulses.length from hc)
    refine ⟨by simp [hp, hc], by simp [hd]; omega, ?_⟩
    simp only [Tape.positionAt, hp, if_true]
    omega
  · rw [hc] at hpassed
    refine ⟨by simp [hp, hc], by simp [hd, hc], ?_⟩
    simp only [Tape.positionAt, hp, hd, if_true]
    simp
    omega

end Sys2Proof.Machine
end

section
/-! Waveforms: the pulses of a block list, and the recorder's decoder on them (rules R44, R465, R488, R509 .. R513, R521). -/

namespace Sys2Proof.Machine

/-! ## The pulses of a block (rule R465) -/

theorem Block.pilotCount_eq (b : Block) : b.pilotCount = if b.data.head? = some 0#8 then 8063 else 3223 := by
  unfold Block.pilotCount
  cases b.data <;> simp [Config.pilotHeader, Config.pilotData]

theorem Block.pilotCount_ge (b : Block) : 100 ≤ b.pilotCount := by
  rw [b.pilotCount_eq]
  split <;> omega

theorem length_bytePulses (v : Byte) : (bytePulses v).length = 16 := rfl

theorem length_flatMap_bytePulses (data : List Byte) : (data.flatMap bytePulses).length = 16 * data.length := by
  simp [List.length_flatMap, length_bytePulses, Nat.mul_comm]

theorem Block.length_pulses (b : Block) (ext : Nat) :
    (b.pulses ext).length = b.pilotCount + 2 + 16 * b.data.length := by
  have := b.pilotCount_ge
  simp only [Block.pulses, List.length_append, List.length_cons, List.length_replicate, List.length_nil,
    length_flatMap_bytePulses]
  omega

/-- With no pause before it, the pilot is a run of equal pulses. -/
theorem Block.pulses_zero (b : Block) :
    b.pulses 0 = List.replicate b.pilotCount Config.pilotT ++
      Config.sync1T :: Config.sync2T :: b.data.flatMap bytePulses := by
  have h : b.pilotCount = (b.pilotCount - 1) + 1 := by
    have := b.pilotCount_ge
    omega
  conv_rhs => rw [h, List.replicate_succ]
  simp [Block.pulses]

/-! ## Decoding them (rules R509 .. R513) -/

/-- The eight bits of a byte, most significant first. -/
def byteBits (v : Byte) : List Bool := [7, 6, 5, 4, 3, 2, 1, 0].map v.getLsbD

theorem bytePulses_eq (v : Byte) : bytePulses v = (byteBits v).flatMap bitPulses := rfl

theorem pairBits_bitPulses (bits : List Bool) : pairBits (bits.flatMap bitPulses) = some bits := by
  have hpair : ∀ x : Bool, pairBit (if x then Config.bit1T else Config.bit0T) (if x then Config.bit1T else Config.bit0T) =
      some x := by decide
  induction bits with
  | nil => rfl
  | cons x bits ih =>
    rw [List.flatMap_cons]
    simp only [bitPulses, List.cons_append, List.nil_append, pairBits, hpair]
    rw [ih]

theorem packBytes_byteBits (v : Byte) (rest : List Bool) : packBytes (byteBits v ++ rest) = v :: packBytes rest := by
  have hv : ∀ v : Byte, BitVec.ofNat 8 (128 * bitNat (v.getLsbD 7) + 64 * bitNat (v.getLsbD 6) +
      32 * bitNat (v.getLsbD 5) + 16 * bitNat (v.getLsbD 4) + 8 * bitNat (v.getLsbD 3) + 4 * bitNat (v.getLsbD 2) +
      2 * bitNat (v.getLsbD 1) + bitNat (v.getLsbD 0)) = v := by decide
  simp only [byteBits, List.map_cons, List.map_nil, List.cons_append, List.nil_append, packBytes, hv]

theorem packBytes_bits (data : List Byte) : packBytes (data.flatMap byteBits) = data := by
  induction data with
  | nil => rfl
  | cons v data ih => rw [List.flatMap_cons, packBytes_byteBits, ih]

/-- The decoder reads back the bytes whose pulses it is given. -/
theorem decodeData_bytePulses (data : List Byte) :
    (pairBits (data.flatMap bytePulses)).map packBytes = some data := by
  have h : data.flatMap bytePulses = (data.flatMap byteBits).flatMap bitPulses := by
    rw [List.flatMap_assoc]
    rfl
  rw [h, pairBits_bitPulses, Option.map_some, packBytes_bits]

theorem near_pilot : near Config.pilotT Config.pilotT = true := by decide

/-- Behind a long enough pilot and the sync pair, the decoder reads the data pulses, trimmed to whole bytes. -/
theorem decodePulses_pilot {n : Nat} (hn : 100 ≤ n) (data : List Nat) :
    decodePulses (List.replicate n Config.pilotT ++ Config.sync1T :: Config.sync2T :: data) =
      if data.length - data.length % 16 = 0 then none
      else (pairBits (data.take (data.length - data.length % 16))).map packBytes := by
  obtain ⟨m, rfl⟩ : ∃ m, n = m + 1 := ⟨n - 1, by omega⟩
  have hsync : near Config.sync1T Config.pilotT = false := by decide
  have hpair : (near Config.sync1T Config.sync1T && near Config.sync2T Config.sync2T) = true := by decide
  have hall : ∀ d ∈ List.replicate (m + 1) Config.pilotT, near d Config.pilotT = true := fun d hd => by
    rw [List.eq_of_mem_replicate hd, near_pilot]
  have hfrom : (List.replicate (m + 1) Config.pilotT ++ Config.sync1T :: Config.sync2T :: data).dropWhile
      (fun d => !near d Config.pilotT) = List.replicate (m + 1) Config.pilotT ++ Config.sync1T :: Config.sync2T :: data := by
    simp [List.replicate_succ, near_pilot]
  simp only [decodePulses, hfrom, List.takeWhile_append_of_pos hall, List.dropWhile_append_of_pos hall]
  simp only [List.takeWhile_cons, List.dropWhile_cons, hsync]
  have hlen : ¬ m + 1 < Config.decMinPilot := by
    rw [Config.decMinPilot]
    omega
  simp [hpair, hlen]

/-- The pulses behind the last block: its pause, if any. -/
theorem expandBlocks_nil_length (ext : Nat) : (expandBlocks ext []).length ≤ 1 := by
  rw [expandBlocks]
  split <;> simp

/-- The recorder's decoder gives back the block its pulses were made of (rules R488, R521). -/
theorem decodePulses_expandBlocks (b : Block) (h : b.data ≠ []) : decodePulses (expandBlocks 0 [b]) = some b.data := by
  have htail := expandBlocks_nil_length (b.pauseMs.toNat * Config.tstatesPerMs)
  have hpos := List.length_pos_iff.mpr h
  rw [expandBlocks, Block.pulses_zero, List.append_assoc, List.cons_append, List.cons_append,
    decodePulses_pilot b.pilotCount_ge]
  have hm : (b.data.flatMap bytePulses ++ expandBlocks (b.pauseMs.toNat * Config.tstatesPerMs) []).length -
      (b.data.flatMap bytePulses ++ expandBlocks (b.pauseMs.toNat * Config.tstatesPerMs) []).length % 16 =
      (b.data.flatMap bytePulses).length := by
    rw [List.length_append, length_flatMap_bytePulses]
    omega
  rw [hm, List.take_left', decodeData_bytePulses]
  · rw [if_neg (by rw [length_flatMap_bytePulses]; omega)]
  · rfl

/-! ## Pulses as 32-bit numbers (rule R44) -/

theorem toNat_pulseOf {d : Nat} (h : d < 2 ^ 32) : (pulseOf d).toNat = d := by
  rw [pulseOf, if_pos h, BitVec.toNat_ofNat, Nat.mod_eq_of_lt h]

theorem pulseOf_ne_zero {d : Nat} (h : 1 ≤ d) : pulseOf d ≠ 0#32 := by
  by_cases hd : d < 2 ^ 32
  · intro h0
    have := toNat_pulseOf hd
    rw [h0, BitVec.toNat_zero] at this
    omega
  · rw [pulseOf, if_neg hd]
    split
    · decide
    · assumption

theorem bytePulses_lt (v : Byte) : ∀ d ∈ bytePulses v, d < 2 ^ 32 := by
  intro d hd
  rw [bytePulses_eq] at hd
  obtain ⟨x, -, hx⟩ := List.mem_flatMap.mp hd
  have hx' : ∀ x : Bool, ∀ d ∈ bitPulses x, d < 2 ^ 32 := by decide
  exact hx' x d hx

/-- Every pulse of a block list with 16-bit pauses fits 32 bits. -/
theorem expandBlocks_lt : ∀ {bs : List Block} {ext : Nat}, ext < 65536 * Config.tstatesPerMs →
    (∀ b ∈ bs, b.pauseMs.toNat < 65536) → ∀ d ∈ expandBlocks ext bs, d < 2 ^ 32
  | [], ext, hext, _, d, hd => by
    rw [expandBlocks] at hd
    rw [Config.tstatesPerMs] at hext
    split at hd
    · rw [List.mem_singleton.mp hd]
      omega
    · cases hd
  | b :: bs, ext, hext, hbs, d, hd => by
    have hb : b.pauseMs.toNat * Config.tstatesPerMs < 65536 * Config.tstatesPerMs :=
      Nat.mul_lt_mul_of_pos_right (hbs b List.mem_cons_self) (by decide)
    rw [Config.tstatesPerMs] at hext
    simp only [expandBlocks, Block.pulses, Config.pilotT, Config.sync1T, Config.sync2T, List.mem_append, List.mem_cons,
      List.mem_replicate, List.mem_flatMap, List.not_mem_nil, or_false] at hd
    rcases hd with (((rfl | ⟨-, rfl⟩) | rfl | rfl) | ⟨v, -, hv⟩) | hd
    · omega
    · omega
    · omega
    · omega
    · exact bytePulses_lt v d hv
    · exact expandBlocks_lt hb (fun b' hb' => hbs b' (List.mem_cons_of_mem _ hb')) d hd

/-- So each is kept as it is. -/
theorem toNat_pulseOf_expandBlocks {bs : List Block} (h : ∀ b ∈ bs, b.pauseMs.toNat < 65536) :
    ((expandBlocks 0 bs).map pulseOf).map BitVec.toNat = expandBlocks 0 bs := by
  rw [List.map_map]
  exact (List.map_congr_left fun d hd => toNat_pulseOf (expandBlocks_lt (by decide) h d hd)).trans (List.map_id _)

end Sys2Proof.Machine
end

section
/-! TapeFiles: exactly which byte lists are TAP and TZX files, and what their errors are (rules R460 .. R462). -/

namespace Sys2Proof.Machine

/-! ## Two-byte numbers -/

theorem leBytes_two (n : Nat) : leBytes 2 n = [BitVec.ofNat 8 n, BitVec.ofNat 8 (n / 256)] := rfl

theorem leNat_two (lo hi : Byte) : leNat [lo, hi] = lo.toNat + 256 * hi.toNat := by simp [leNat]

theorem leNat_two_lt (lo hi : Byte) : leNat [lo, hi] < 65536 := by
  have := lo.isLt
  have := hi.isLt
  rw [leNat_two]
  omega

theorem leNat_leBytes_two {n : Nat} (h : n < 65536) : leNat [BitVec.ofNat 8 n, BitVec.ofNat 8 (n / 256)] = n := by
  rw [leNat_two, BitVec.toNat_ofNat, BitVec.toNat_ofNat]
  omega

theorem leBytes_leNat_two (lo hi : Byte) : leBytes 2 (leNat [lo, hi]) = [lo, hi] := by
  have := lo.isLt
  rw [leBytes_two, leNat_two]
  congr 1
  · apply BitVec.eq_of_toNat_eq
    rw [BitVec.toNat_ofNat]
    omega
  · congr 1
    apply BitVec.eq_of_toNat_eq
    have := hi.isLt
    rw [BitVec.toNat_ofNat]
    omega

theorem length_tapRecord (data : List Byte) : (tapRecord data).length = 2 + data.length := by
  simp only [tapRecord, leBytes_two, List.length_append, List.length_cons, List.length_nil]

theorem length_tzxRecord (b : Block) : (tzxRecord b).length = 5 + b.data.length := by
  simp [tzxRecord, leBytes_two, length_tapRecord]
  omega

/-! ## TAP (rule R461) -/

/-- What rule R461 asks of a block read from a TAP file. -/
def TapBlock (b : Block) : Prop := b.data.length < 65536 ∧ b.pauseMs = 1000#32

/-- Whole records in front are read as their blocks. -/
theorem tapRecords_append {bs : List Block} (h : ∀ b ∈ bs, TapBlock b) (fuel : Nat) (rest : List Byte) :
    tapRecords (fuel + bs.length) (bs.flatMap (fun b => tapRecord b.data) ++ rest) =
      (tapRecords fuel rest).map (bs ++ ·) := by
  induction bs with
  | nil => cases hr : tapRecords fuel rest <;> simp [hr, Except.map]
  | cons b bs ih =>
    obtain ⟨hlen, hpause⟩ := h b List.mem_cons_self
    have hb : (⟨b.data, BitVec.ofNat 32 Config.tapDefaultPauseMs⟩ : Block) = b := by cases b; cases hpause; rfl
    have hrest := ih fun b' hb' => h b' (List.mem_cons_of_mem _ hb')
    simp only [List.flatMap_cons, tapRecord, leBytes_two, List.cons_append, List.nil_append, List.append_assoc,
      List.length_cons, ← Nat.add_assoc, tapRecords, leNat_leBytes_two hlen] at hrest ⊢
    rw [if_neg (by simp), List.drop_left, List.take_left, hrest, hb]
    cases tapRecords fuel rest <;> rfl

/-- Only whole records are read. -/
theorem tapRecords_sound : ∀ {fuel : Nat} {file : List Byte} {bs : List Block}, tapRecords fuel file = .ok bs →
    file = bs.flatMap (fun b => tapRecord b.data) ∧ ∀ b ∈ bs, TapBlock b
  | _, [], _, h => by
    simp only [tapRecords, Except.ok.injEq] at h
    subst h
    simp
  | 0, _ :: _, _, h => by simp [tapRecords] at h
  | _ + 1, [_], _, h => by simp [tapRecords] at h
  | fuel + 1, lo :: hi :: rest, bs, h => by
    simp only [tapRecords] at h
    split at h
    · cases h
    next hlen =>
      split at h
      next bs' hbs =>
        cases h
        obtain ⟨hfile, hok⟩ := tapRecords_sound hbs
        have htake : (rest.take (leNat [lo, hi])).length = leNat [lo, hi] := List.length_take_of_le (by omega)
        constructor
        · rw [List.flatMap_cons, ← hfile, tapRecord, htake, leBytes_leNat_two]
          simp
        · intro b hb
          rcases List.mem_cons.mp hb with rfl | hb
          · exact ⟨htake.trans_lt (leNat_two_lt lo hi), rfl⟩
          · exact hok b hb
      next => cases h

theorem tapRecords_error : ∀ {fuel : Nat} {file : List Byte} {e : HostError}, tapRecords fuel file = .error e →
    e = .tapeParse none
  | _, [], _, h => by simp [tapRecords] at h
  | 0, _ :: _, _, h => by
    simp only [tapRecords, Except.error.injEq] at h
    exact h.symm
  | _ + 1, [_], _, h => by
    simp only [tapRecords, Except.error.injEq] at h
    exact h.symm
  | fuel + 1, lo :: hi :: rest, e, h => by
    simp only [tapRecords] at h
    split at h
    · cases h; rfl
    · split at h
      · cases h
      next hrest =>
        cases h
        exact tapRecords_error hrest

/-- As many records as blocks. -/
theorem length_le_flatMap {record : Block → List Byte} (h : ∀ b, 0 < (record b).length) (bs : List Block) :
    bs.length ≤ (bs.flatMap record).length := by
  induction bs with
  | nil => exact Nat.le_refl _
  | cons b bs ih =>
    have := h b
    simp only [List.length_cons, List.flatMap_cons, List.length_append]
    omega

/-- Exactly the records of a block list are a TAP file. -/
theorem parseTap_iff (file : List Byte) (bs : List Block) :
    parseTap file = .ok bs ↔ file = bs.flatMap (fun b => tapRecord b.data) ∧ ∀ b ∈ bs, TapBlock b := by
  refine ⟨tapRecords_sound, fun ⟨hfile, hbs⟩ => ?_⟩
  have hlen := length_le_flatMap (record := fun b => tapRecord b.data) (fun b => by rw [length_tapRecord]; omega) bs
  have hall := tapRecords_append hbs (file.length + 1 - bs.length) []
  rw [List.append_nil, ← hfile, Nat.sub_add_cancel (by rw [hfile]; omega)] at hall
  rw [parseTap, hall]
  simp [tapRecords, Except.map]

/-! ## TZX (rule R462) -/

/-- What rule R462 asks of a standard-speed block. -/
def TzxBlock (b : Block) : Prop := b.data.length < 65536 ∧ b.pauseMs.toNat < 65536

/-- The file offset behind standard-speed blocks that begin at `at_`. -/
def tzxOffset (at_ : Nat) (bs : List Block) : Nat := at_ + (bs.map (fun b => 5 + b.data.length)).sum

/-- Whole blocks in front are read as they are. -/
theorem tzxBlocks_append {bs : List Block} (h : ∀ b ∈ bs, TzxBlock b) (fuel at_ : Nat) (rest : List Byte) :
    tzxBlocks (fuel + bs.length) at_ (bs.flatMap tzxRecord ++ rest) =
      (tzxBlocks fuel (tzxOffset at_ bs) rest).map (bs ++ ·) := by
  induction bs generalizing at_ with
  | nil => cases hr : tzxBlocks fuel at_ rest <;> simp [hr, tzxOffset, Except.map]
  | cons b bs ih =>
    obtain ⟨hlen, hpause⟩ := h b List.mem_cons_self
    have hrest := ih (fun b' hb' => h b' (List.mem_cons_of_mem _ hb')) (at_ + 5 + b.data.length)
    have hoff : tzxOffset (at_ + 5 + b.data.length) bs = tzxOffset at_ (b :: bs) := by
      simp only [tzxOffset, List.map_cons, List.sum_cons]
      omega
    have hb : (⟨b.data, BitVec.ofNat 32 b.pauseMs.toNat⟩ : Block) = b := by
      rw [BitVec.ofNat_toNat, BitVec.setWidth_eq]
    simp only [List.flatMap_cons, tzxRecord, tapRecord, leBytes_two, List.cons_append, List.nil_append,
      List.append_assoc, List.length_cons, ← Nat.add_assoc, tzxBlocks, leNat_leBytes_two hlen,
      leNat_leBytes_two hpause, if_true] at hrest ⊢
    rw [if_neg (by simp), List.drop_left, List.take_left, hrest, hb, hoff]
    cases tzxBlocks fuel (tzxOffset at_ (b :: bs)) rest <;> rfl

/-- Only whole standard-speed blocks are read. -/
theorem tzxBlocks_sound : ∀ {fuel at_ : Nat} {file : List Byte} {bs : List Block}, tzxBlocks fuel at_ file = .ok bs →
    file = bs.flatMap tzxRecord ∧ ∀ b ∈ bs, TzxBlock b
  | _, _, [], _, h => by
    simp only [tzxBlocks, Except.ok.injEq] at h
    subst h
    simp
  | 0, _, _ :: _, _, h => by simp [tzxBlocks] at h
  | fuel + 1, at_, id :: rest, bs, h => by
    simp only [tzxBlocks] at h
    split at h
    next hid =>
      split at h
      next p0 p1 l0 l1 body =>
        split at h
        · cases h
        next hlen =>
          split at h
          next bs' hbs =>
            cases h
            obtain ⟨hfile, hok⟩ := tzxBlocks_sound hbs
            have htake : (body.take (leNat [l0, l1])).length = leNat [l0, l1] := List.length_take_of_le (by omega)
            have hpause : (BitVec.ofNat 32 (leNat [p0, p1])).toNat = leNat [p0, p1] := by
              have := leNat_two_lt p0 p1
              rw [BitVec.toNat_ofNat]
              omega
            constructor
            · rw [List.flatMap_cons, ← hfile, hid, tzxRecord, tapRecord, htake, hpause, leBytes_leNat_two,
                leBytes_leNat_two]
              simp
            · intro b hb
              rcases List.mem_cons.mp hb with rfl | hb
              · exact ⟨htake.trans_lt (leNat_two_lt l0 l1), hpause.trans_lt (leNat_two_lt p0 p1)⟩
              · exact hok b hb
          next => cases h
      next => cases h
    next => cases h

/-- A block of another ID is named with its offset; any other failure is the one of a malformed file. -/
theorem tzxBlocks_error {whole : List Byte} : ∀ {fuel at_ : Nat} {file : List Byte} {e : HostError},
    tzxBlocks fuel at_ file = .error e → whole.drop at_ = file →
    e = .tapeParse none ∨ ∃ id at_, e = .tapeParse (some (id, at_)) ∧ whole[at_]? = some id ∧ id ≠ 0x10#8
  | _, _, [], _, h, _ => by simp [tzxBlocks] at h
  | 0, _, _ :: _, _, h, _ => by
    simp only [tzxBlocks, Except.error.injEq] at h
    exact .inl h.symm
  | fuel + 1, at_, id :: rest, e, h, hw => by
    simp only [tzxBlocks] at h
    split at h
    next =>
      split at h
      next p0 p1 l0 l1 body =>
        split at h
        · cases h
          exact .inl rfl
        · split at h
          · cases h
          next hbody =>
            cases h
            refine tzxBlocks_error hbody ?_
            rw [Nat.add_assoc, ← List.drop_drop, hw, ← List.drop_drop]
            rfl
      next =>
        cases h
        exact .inl rfl
    next hid =>
      cases h
      have hat : whole[at_]? = some id := by
        rw [← List.head?_drop, hw]
        rfl
      exact .inr ⟨id, at_, rfl, hat, hid⟩

/-- A file that begins with the signature and two version bytes is read as the blocks behind them. -/
theorem parseTzx_signature (major minor : Byte) (blocks : List Byte) :
    parseTzx (tzxSignature ++ [major, minor] ++ blocks) = tzxBlocks (10 + blocks.length + 1) 10 blocks := by
  have hlen : (tzxSignature ++ [major, minor] ++ blocks).length = 10 + blocks.length := by
    rw [List.length_append]
    rfl
  rw [parseTzx, hlen, if_neg (by simp [tzxSignature])]
  rfl

/-- Any other file is malformed. -/
theorem parseTzx_cases (file : List Byte) :
    parseTzx file = .error (.tapeParse none) ∨
    ∃ major minor blocks, file = tzxSignature ++ [major, minor] ++ blocks := by
  by_cases h : file.length < 10 ∨ file.take 8 ≠ tzxSignature
  · exact .inl (if_pos h)
  · simp only [not_or, Nat.not_lt, not_not] at h
    obtain ⟨hlen, hsig⟩ := h
    have hdrop : 2 ≤ (file.drop 8).length := by
      rw [List.length_drop]
      omega
    match hd : file.drop 8, hdrop with
    | major :: minor :: blocks, _ =>
      refine .inr ⟨major, minor, blocks, ?_⟩
      conv_lhs => rw [← List.take_append_drop 8 file, hsig, hd]
      simp

/-- Exactly the signature, two version bytes and standard-speed blocks are a TZX file. -/
theorem parseTzx_iff (file : List Byte) (bs : List Block) :
    parseTzx file = .ok bs ↔
      (∃ major minor : Byte, file = tzxSignature ++ [major, minor] ++ bs.flatMap tzxRecord) ∧ ∀ b ∈ bs, TzxBlock b := by
  constructor
  · intro h
    obtain he | ⟨major, minor, blocks, rfl⟩ := parseTzx_cases file
    · rw [he] at h
      cases h
    · rw [parseTzx_signature] at h
      obtain ⟨rfl, hbs⟩ := tzxBlocks_sound h
      exact ⟨⟨major, minor, rfl⟩, hbs⟩
  · rintro ⟨⟨major, minor, rfl⟩, hbs⟩
    have hlen := length_le_flatMap (record := tzxRecord) (fun b => by rw [length_tzxRecord]; omega) bs
    have hall := tzxBlocks_append hbs (10 + (bs.flatMap tzxRecord).length + 1 - bs.length) 10 []
    rw [Nat.sub_add_cancel (by omega), List.append_nil] at hall
    rw [parseTzx_signature, hall]
    simp [tzxBlocks, Except.map]

/-- An unknown block is named with its offset. -/
theorem parseTzx_unknown (major minor id : Byte) {bs : List Block} (rest : List Byte) (hid : id ≠ 0x10#8)
    (hbs : ∀ b ∈ bs, TzxBlock b) :
    parseTzx (tzxSignature ++ [major, minor] ++ (bs.flatMap tzxRecord ++ id :: rest)) =
      .error (.tapeParse (some (id, tzxOffset 10 bs))) := by
  have hlen := length_le_flatMap (record := tzxRecord) (fun b => by rw [length_tzxRecord]; omega) bs
  have hfuel : 10 + (bs.flatMap tzxRecord ++ id :: rest).length + 1 =
      (10 + (bs.flatMap tzxRecord ++ id :: rest).length - bs.length) + 1 + bs.length := by
    rw [List.length_append]
    omega
  rw [parseTzx_signature, hfuel, tzxBlocks_append hbs]
  simp [tzxBlocks, hid, Except.map]

theorem parseTzx_error {file : List Byte} {e : HostError} (h : parseTzx file = .error e) :
    e = .tapeParse none ∨ ∃ id at_, e = .tapeParse (some (id, at_)) ∧ file[at_]? = some id ∧ id ≠ 0x10#8 := by
  obtain he | ⟨major, minor, blocks, rfl⟩ := parseTzx_cases file
  · rw [he] at h
    cases h
    exact .inl rfl
  · rw [parseTzx_signature] at h
    exact tzxBlocks_error h (by simp [tzxSignature])

/-! ## Files to waveforms (rule R460) -/

theorem parseTape_eq_map (file : List Byte) :
    parseTape .tap file = (parseTap file).map (fun bs => some (blocksWaveform .tap bs)) ∧
    parseTape .tzx file = (parseTzx file).map (fun bs => some (blocksWaveform .tzx bs)) ∧
    parseTape .wav file = (parseWav file).map (fun w => some w.waveform) := by
  simp only [parseTape]
  refine ⟨?_, ?_, ?_⟩
  · cases parseTap file <;> rfl
  · cases parseTzx file <;> rfl
  · cases parseWav file <;> rfl

end Sys2Proof.Machine
end

section
/-! WavWaveform: the waveform of a WAV file is the runs of equal sign of its samples (rule R464). -/

namespace Sys2Proof.Machine

/-! ## Signs -/

theorem sampleBytes_eq (x : Int) :
    sampleBytes x = [BitVec.ofNat 8 (BitVec.ofInt 16 x).toNat, BitVec.ofNat 8 ((BitVec.ofInt 16 x).toNat / 256)] := rfl

/-- The sign of an int16 sample is the top bit of its high byte. -/
theorem sign_sampleBytes {x : Int} (h : -32768 ≤ x ∧ x ≤ 32767) :
    (!(BitVec.ofNat 8 ((BitVec.ofInt 16 x).toNat / 256)).getLsbD 7) = decide (0 ≤ x) := by
  have hbit : ∀ v : Byte, v.getLsbD 7 = decide (128 ≤ v.toNat) := by decide
  have hlt := (BitVec.ofInt 16 x).isLt
  have hx : (BitVec.ofInt 16 x).toNat = (x % 65536).toNat := by simp [BitVec.toNat_ofInt]
  rw [hbit, BitVec.toNat_ofNat, Bool.eq_iff_iff]
  simp only [Bool.not_eq_true', decide_eq_false_iff_not, decide_eq_true_eq]
  omega

theorem signs16_sampleBytes {xs : List Int} {odd : List Byte} (hxs : ∀ x ∈ xs, -32768 ≤ x ∧ x ≤ 32767)
    (hodd : odd.length ≤ 1) : signs16 (xs.flatMap sampleBytes ++ odd) = xs.map (fun x => decide (0 ≤ x)) := by
  induction xs with
  | nil =>
    match odd, hodd with
    | [], _ => rfl
    | [_], _ => rfl
  | cons x xs ih =>
    rw [List.flatMap_cons, sampleBytes_eq, List.map_cons, ← sign_sampleBytes (hxs x List.mem_cons_self),
      ← ih fun y hy => hxs y (List.mem_cons_of_mem _ hy)]
    rfl

theorem WavFile.signs_of_8 {w : WavFile} (h : w.format.bits = 8) :
    w.signs = w.data.map (fun v => decide (128 ≤ v.toNat)) := by
  simp [WavFile.signs, h]

theorem WavFile.signs_of_16 {w : WavFile} (h : w.format.bits = 16) : w.signs = signs16 w.data := by
  simp [WavFile.signs, h]

/-! ## Runs -/

/-- The first run, and the others from the other level on. -/
theorem runsOf_cons {α : Type} (value : Bool → α) (lvl : Bool) (n : Nat) (runs : List Nat) :
    runsOf value lvl (n :: runs) = List.replicate n (value lvl) ++ runsOf value (!lvl) runs := by
  have hflip : ∀ k, (lvl ^^ decide ((k + 1) % 2 = 1)) = (!lvl ^^ decide (k % 2 = 1)) := fun k => by
    rw [← level_succ, Bool.not_xor]
  simp only [runsOf, List.zipIdx_cons, List.flatMap_cons, List.zipIdx_succ, List.flatMap_map, hflip]
  simp

/-- Counting a run on over its samples. -/
theorem runPulses_replicate (rate : Nat) (lvl : Bool) (rest : List Bool) : ∀ n m : Nat,
    runPulses rate lvl n (List.replicate m lvl ++ rest) = runPulses rate lvl (n + m) rest
  | _, 0 => rfl
  | n, m + 1 => by
    rw [List.replicate_succ, List.cons_append, runPulses, if_pos rfl, runPulses_replicate rate lvl rest (n + 1) m,
      Nat.add_right_comm, Nat.add_assoc]

/-- Each run becomes one pulse, the one being counted first. -/
theorem runPulses_runsOf {rate : Nat} : ∀ {runs : List Nat} {lvl : Bool} {n : Nat}, (∀ m ∈ runs, 0 < m) →
    runPulses rate lvl n (runsOf id (!lvl) runs) = runPulse rate n :: runs.map (runPulse rate)
  | [], _, _, _ => rfl
  | m :: runs, lvl, n, h => by
    obtain ⟨k, rfl⟩ : ∃ k, m = k + 1 := ⟨m - 1, by have := h m List.mem_cons_self; omega⟩
    have hne : (!lvl) ≠ lvl := by cases lvl <;> decide
    rw [runsOf_cons, List.replicate_succ, List.cons_append]
    simp only [runPulses, id, if_neg hne]
    rw [runPulses_replicate, runPulses_runsOf fun m' hm' => h m' (List.mem_cons_of_mem _ hm'), Nat.add_comm 1 k,
      List.map_cons]

/-- Rounding a quotient to the nearest number, half up, in whole numbers. -/
theorem floor_div_add_half (a rate : Nat) :
    ⌊(a : Rat) / (rate : Rat) + 1 / 2⌋.toNat = (2 * a + rate) / (2 * rate) := by
  rcases Nat.eq_zero_or_pos rate with rfl | hpos
  · norm_num
  · have hrate : (rate : Rat) ≠ 0 := Nat.cast_ne_zero.mpr hpos.ne'
    have hq : (a : Rat) / (rate : Rat) + 1 / 2 = ((2 * a + rate : Nat) : Rat) / ((2 * rate : Nat) : Rat) := by
      push_cast
      field_simp
    rw [Int.floor_toNat, hq, Nat.floor_div_eq_div]

/-- A run's duration is rounded to the nearest T-state, half up, and at least 1. -/
theorem runPulse_eq (rate n : Nat) :
    runPulse rate n = max 1 ⌊(n : Rat) * 3500000 / (rate : Rat) + 1 / 2⌋.toNat := by
  have hHz : (Config.cpuHz : Rat) = 3500000 := by norm_num [Config.cpuHz]
  have h := floor_div_add_half (n * Config.cpuHz) rate
  rw [Nat.cast_mul, hHz, ← Nat.mul_assoc] at h
  rw [runPulse, ← h]

theorem WavFile.waveform_nil {w : WavFile} (h : w.signs = []) :
    w.waveform =
      { initialLevel := false, pulses := [], sampleRate := some w.format.sampleRate, origin := .wav, blocks := [] } := by
  simp only [WavFile.waveform, h]

theorem WavFile.waveform_runs {w : WavFile} {lvl : Bool} {runs : List Nat} (hruns : runs ≠ []) (hpos : ∀ n ∈ runs, 0 < n)
    (h : w.signs = runsOf id lvl runs) :
    w.waveform =
      { initialLevel := lvl
        pulses := runs.map (fun n => pulseOf (runPulse w.format.sampleRate n))
        sampleRate := some w.format.sampleRate
        origin := .wav
        blocks := [] } := by
  obtain ⟨n, runs, rfl⟩ := List.exists_cons_of_ne_nil hruns
  obtain ⟨k, rfl⟩ : ∃ k, n = k + 1 := ⟨n - 1, by have := hpos n List.mem_cons_self; omega⟩
  rw [runsOf_cons, List.replicate_succ, List.cons_append] at h
  simp only [WavFile.waveform, h, id]
  rw [runPulses_replicate, runPulses_runsOf fun m hm => hpos m (List.mem_cons_of_mem _ hm), Nat.add_comm 1 k,
    ← List.map_cons, List.map_map]
  rfl

/-- The list of numbers as rationals that the statement of the rounding names. -/
theorem map_natCast (runs : List Nat) : (do let n ← runs; pure (n : Rat)) = runs.map Nat.cast := by
  induction runs with
  | nil => rfl
  | cons n runs ih => exact congrArg _ ih

/-- Settles O57: block lists to pulses and back, the TAP and TZX files both ways, and the runs of a WAV file. -/
theorem tapeRoundTrip : Obligations.TapeRoundTrip := by
  refine ⟨decodePulses_expandBlocks, fun b ext => ?_, fun b rest ext => ⟨rfl, ?_⟩, parseTap_iff,
    fun _ _ => tapRecords_error, parseTzx_iff, fun major minor id bs rest hid hbs => ?_, fun _ _ => parseTzx_error,
    parseTape_eq_map, fun d => ⟨toNat_pulseOf, pulseOf_ne_zero⟩, fun _ => toNat_pulseOf_expandBlocks,
    fun w => ⟨WavFile.signs_of_8, fun xs odd hbits hxs hodd hdata => ?_, WavFile.waveform_nil,
      fun lvl runs hruns hpos h => ?_⟩⟩
  · rw [b.length_pulses, b.pilotCount_eq]
  · rw [← b.pilotCount_eq]
    rfl
  · rw [List.append_assoc]
    exact parseTzx_unknown major minor id rest hid hbs
  · rw [WavFile.signs_of_16 hbits, hdata, signs16_sampleBytes hxs hodd]
  · rw [WavFile.waveform_runs hruns hpos h, map_natCast, List.map_map]
    simp only [runPulse_eq]
    rfl

end Sys2Proof.Machine
end

section
/-! Stores: byte and word accesses, the stack, and the instructions that are one store, one push or one pop (rules R61 .. R63,
R76, R133 .. R147, R166 .. R173). -/

namespace Sys2Proof.Machine

/-- Settles O24: the laws of a byte and of a word write; at the edge of the ROM the second splits the word. -/
theorem memoryAccess : Obligations.MemoryAccess := by
  intro s a v hm
  have hedge := storedWord_write16 hm 0x3FFF#16 v
  refine ⟨fun b => ⟨State.write8_rom b, storedByte_write8 hm a b, State.write8_eq s a b⟩, rfl, rfl,
    storedWord_write16 hm a v, rfl, ?_, ?_⟩
  · exact (hedge 0x3FFF#16).trans (by simp [Config.romSize])
  · exact (hedge 0x4000#16).trans (by simp [Config.romSize])

/-- A word whose two bytes lie in RAM reads back as it was stored (rule R63). -/
theorem StoredWord.read16 {s t : State} {a v : Word} (h : StoredWord s t a v) (hlo : Config.romSize ≤ a.toNat)
    (hhi : Config.romSize ≤ (a + 1#16).toNat) : t.read16 a = v := by
  have hne : a + 1#16 ≠ a := by bv_omega
  rw [State.read16, h, h, if_neg (fun hc => hne hc.1), if_pos ⟨rfl, hhi⟩, if_pos ⟨rfl, hlo⟩, mkWord_hiByte_loByte]

/-- Settles O25: a push stores the word under SP; the pop after it reads that word and moves SP back. -/
theorem stack : Obligations.Stack := by
  intro s v hm
  have hpush := State.push16_eq s v
  have hstored := storedWord_push16 hm v
  refine ⟨⟨State.push16_cpu_eq s v, hstored, ?_, State.push16_cursor s v⟩, ⟨?_, ?_⟩, fun hlo hhi => ⟨?_, ?_⟩⟩
  · unfold SameOutside
    rw [hpush]
  · rw [State.pop16_eq]
  · rw [State.pop16_eq]
  · have hnext : s.cpu.sp - 2#16 + 1#16 = s.cpu.sp - 1#16 := by bv_omega
    rw [State.pop16_value, State.push16_cpu_eq]
    exact hstored.read16 hlo (hnext ▸ hhi)
  · have hback : s.cpu.sp - 2#16 + 2#16 = s.cpu.sp := by bv_omega
    rw [State.pop16_eq, State.push16_cpu_eq, hback]

/-- Settles O35: each of these instructions is one byte write after its fetch. -/
theorem storeByteInstructions : Obligations.StoreByteInstructions := by
  intro s hm
  have plain : ∀ {i : Instr} {a : Word} {v : Byte} {n k tt : Nat},
      exec i s = .next ((s.fetched n k tt).write8 a v) → StoresByte i s a v n k tt :=
    fun h => .of_write8 hm h (atFetch_fetched ..) (took_fetched ..)
  have indexed : ∀ {i : Instr} {xy : Xy} {a : Word} {v : Byte} {n k tt : Nat},
      exec i s = .next ((s.fetchedIdx xy n k tt).write8 a v) → StoresByte i s a v n k tt :=
    fun h => .of_write8 hm h (atFetch_fetchedIdx ..) (took_fetchedIdx ..)
  refine ⟨fun r => plain ?_, fun n => plain rfl, plain rfl, plain rfl, fun nn => plain rfl, fun xy d =>
    ⟨ea_eq_indexedAddress .., fun r => indexed (xy := xy) ?_, fun n => indexed (xy := xy) ?_⟩⟩
  · cases r <;> rfl
  · cases xy <;> cases r <;> rfl
  · cases xy <;> rfl

/-- An instruction that changes registers alone after its fetch. -/
theorem Computes.of_setCpu {i : Instr} {s u : State} {c : Cpu} {n k tt : Nat}
    (h : exec i s = .next (u.setCpu { c with pc := u.cpu.pc, r := u.cpu.r })) (hu : AtFetch s u) (ht : Took s u n k tt) :
    Computes i s c n k tt := by
  refine ⟨_, h, ht, rfl, fun x => hu.read8 x, ?_⟩
  unfold SameOutside State.setCpu
  rw [hu]

/-- POP of a pair: SP moves past the word under it, and the pair takes the word. -/
theorem exec_popRp2 (p : Rp2) (s : State) :
    exec (.popRp2 p) s =
      .next (((s.fetched 1 1 10).setSp (s.cpu.sp + 2#16)).setRp2 p
        (mkWord (s.read8 (s.cpu.sp + 1#16)) (s.read8 s.cpu.sp))) := by
  show Host.Outcome.next ((s.fetched 1 1 10).pop16.2.setRp2 p (s.fetched 1 1 10).pop16.1) = _
  rw [State.pop16_eq]
  rfl

/-- POP of an index register. -/
theorem exec_popXy (xy : Xy) (s : State) :
    exec (.popXy xy) s =
      .next (((s.fetchedIdx xy 2 2 14).setSp (s.cpu.sp + 2#16)).setXy xy
        (mkWord (s.read8 (s.cpu.sp + 1#16)) (s.read8 s.cpu.sp))) := by
  show Host.Outcome.next ((s.fetchedIdx xy 2 2 14).pop16.2.setXy xy (s.fetchedIdx xy 2 2 14).pop16.1) = _
  rw [State.pop16_eq]
  rfl

/-- Settles O38: a push after the fetch stores the pair under SP; a pop loads its word into a pair or an index register. -/
theorem pushAndPop : Obligations.PushAndPop := by
  refine ⟨fun s hm => ⟨fun p => ?_, fun xy => ?_⟩, fun s => ?_⟩
  · exact .of_push16 hm (by cases p <;> rfl) (atFetch_fetched s 1 1 11) (took_fetched ..)
  · exact .of_push16 hm (by cases xy <;> rfl) (atFetch_fetchedIdx s xy 2 2 15) (took_fetchedIdx ..)
  · have pair : ∀ {p : Rp2} {c : Cpu}, exec (.popRp2 p) s = .next ((s.fetched 1 1 10).setCpu
        { c with pc := (s.fetched 1 1 10).cpu.pc, r := (s.fetched 1 1 10).cpu.r }) → Computes (.popRp2 p) s c 1 1 10 :=
      fun h => .of_setCpu h (atFetch_fetched ..) (took_fetched ..)
    have index : ∀ {xy : Xy} {c : Cpu}, exec (.popXy xy) s = .next ((s.fetchedIdx xy 2 2 14).setCpu
        { c with pc := (s.fetchedIdx xy 2 2 14).cpu.pc, r := (s.fetchedIdx xy 2 2 14).cpu.r }) →
        Computes (.popXy xy) s c 2 2 14 :=
      fun h => .of_setCpu h (atFetch_fetchedIdx ..) (took_fetchedIdx ..)
    refine ⟨pair ?_, pair ?_, pair ?_, pair ?_, index (exec_popXy .ix s), index (exec_popXy .iy s)⟩ <;>
      simp [exec_popRp2, State.setRp2, State.setBc, State.setDe, State.setHl, State.setAfPair, State.setSp, State.setCpu]

end Sys2Proof.Machine
end

section
/-! RoundTrip: decoding what the encoder wrote (rules R90 .. R116). -/

namespace Sys2Proof

/-- The two bytes of a word, low byte first, are read back as that word (rule R99). -/
theorem withWord_bytes (f : Word → Instr) (nn : Word) (rest : List Byte) :
    withWord f (loByte nn :: hiByte nn :: rest) = .ok (f nn, rest) := by
  rw [withWord, mkWord_hiByte_loByte]

/-! ## Behind index prefixes (rules R103, R107, R363) -/

theorem decode_xy (xy : Xy) (bytes : List Byte) : decode (xy.byte :: bytes) = decodeAfterXy xy bytes := by
  cases xy <;> rfl

theorem decodeAfterXy_byte (xy xy' : Xy) (bytes : List Byte) :
    decodeAfterXy xy (xy'.byte :: bytes) = (decodeAfterXy xy' bytes).under (.xpXp xy) := by
  cases xy' <;> rfl

theorem encode_of_isEd {i : Instr} (h : i.isEd = true) : ∃ op tail, encode i = 0xED#8 :: op :: tail := by
  cases i <;> cases h <;> exact ⟨_, _, rfl⟩

theorem encode_of_startsWithXy {i : Instr} (h : i.startsWithXy = true) : ∃ xy tail, encode i = Xy.byte xy :: tail := by
  cases i <;> cases h <;> exact ⟨_, _, rfl⟩

/-- The ED table is the same behind DD or FD. -/
theorem decodeAfterXy_ed {i : Instr} (h : i.isEd = true) (xy : Xy) (rest : List Byte) :
    decodeAfterXy xy (encode i ++ rest) = (decode (encode i ++ rest)).under (.xpEd xy) := by
  obtain ⟨op, tail, e⟩ := encode_of_isEd h
  rw [e]
  rfl

/-- Behind DD or FD, another of the two starts over. -/
theorem decodeAfterXy_xy {i : Instr} (h : i.startsWithXy = true) (xy : Xy) (rest : List Byte) :
    decodeAfterXy xy (encode i ++ rest) = (decode (encode i ++ rest)).under (.xpXp xy) := by
  obtain ⟨xy', tail, e⟩ := encode_of_startsWithXy h
  rw [e, List.cons_append, decode_xy, decodeAfterXy_byte]

/-- An opcode of the main table that DD and FD leave as it is (rule R105). -/
def plainOp (op : Byte) : Bool :=
  op != 0xCB#8 && op != 0xDD#8 && op != 0xED#8 && op != 0xFD#8 && (decodeXyMain .ix op []).isNone

theorem encode_of_plainUnderXy {i : Instr} (h : i.plainUnderXy = true) :
    ∃ op tail, encode i = op :: tail ∧ plainOp op = true := by
  cases i with
  | ldRpNn p _ | incRp p | decRp p => cases p <;> cases h <;> exact ⟨_, _, rfl, rfl⟩
  | popRp2 p | pushRp2 p => cases p <;> cases h <;> exact ⟨_, _, rfl, rfl⟩
  | incR r | decR r | ldRN r _ | addR r | adcR r | subR r | sbcR r | andR r | xorR r | orR r | cpR r =>
    cases r <;> cases h <;> exact ⟨_, _, rfl, rfl⟩
  | ldRR r q => cases r <;> cases q <;> cases h <;> exact ⟨_, _, rfl, rfl⟩
  | retCc cc | jpCcNn cc _ | callCcNn cc _ => cases cc <;> exact ⟨_, _, rfl, rfl⟩
  | rst y => fin_cases y <;> exact ⟨_, _, rfl, rfl⟩
  | _ => cases h <;> exact ⟨_, _, rfl, rfl⟩

theorem wf_of_plainUnderXy {i : Instr} (h : i.plainUnderXy = true) : i.wf = true := by
  cases i with
  | retn _ | undefinedEd _ | ldRRXy _ _ _ | xpMain _ _ | xpEd _ _ | xpXp _ _ => cases h
  | _ => rfl

theorem complete_of_plainUnderXy {i : Instr} (h : i.plainUnderXy = true) : i.complete = true := by
  cases i with
  | prefixCb | prefixEd | prefixXy _ | xpXp _ _ => cases h
  | _ => rfl

theorem complete_of_isEd {i : Instr} (h : i.isEd = true) : i.complete = true := by
  cases i <;> cases h <;> rfl

/-- Whether DD and FD alter an opcode rests on the opcode alone. -/
theorem isNone_decodeXyMain (xy : Xy) (op : Byte) (rest : List Byte) :
    (decodeXyMain xy op rest).isNone = (decodeXyMain .ix op []).isNone := by
  unfold decodeXyMain
  dsimp only
  repeat' split
  all_goals rfl

/-- A main-table instruction that DD and FD leave as it is, is read the same behind them. -/
theorem decodeAfterXy_plain {i : Instr} (h : i.plainUnderXy = true) (xy : Xy) (rest : List Byte) :
    decodeAfterXy xy (encode i ++ rest) = (decode (encode i ++ rest)).under (.xpMain xy) := by
  obtain ⟨op, tail, e, hop⟩ := encode_of_plainUnderXy h
  simp only [plainOp, Bool.and_eq_true, bne_iff_ne, ne_eq] at hop
  obtain ⟨⟨⟨⟨hcb, hdd⟩, hed⟩, hfd⟩, hnone⟩ := hop
  rw [← isNone_decodeXyMain xy op (tail ++ rest), Option.isNone_iff_eq_none] at hnone
  simp only [e, List.cons_append, decode, decodeAfterXy, hcb, hdd, hed, hfd, hnone, if_false]

/-! ## Undefined ED sub-opcodes (rule R114) -/

theorem decodeEdX1_of_nil {op : Byte} {i : Instr} (rest : List Byte) (h : decodeEdX1 op [] = .ok (i, [])) :
    decodeEdX1 op rest = .ok (i, rest) := by
  unfold decodeEdX1 at h ⊢
  dsimp only at h ⊢
  repeat' split at h
  all_goals cases h <;> rfl

theorem decodeEdX2_of_nil {op : Byte} {i : Instr} (rest : List Byte) (h : decodeEdX2 op [] = .ok (i, [])) :
    decodeEdX2 op rest = .ok (i, rest) := by
  unfold decodeEdX2 at h ⊢
  split at h <;> cases h <;> rfl

/-- An ED sub-opcode that stands for an instruction alone does so in front of any bytes. -/
theorem decodeEd_of_nil {op : Byte} {i : Instr} (rest : List Byte) (h : decodeEd op [] = .ok (i, [])) :
    decodeEd op rest = .ok (i, rest) := by
  unfold decodeEd at h ⊢
  split at h
  · exact decodeEdX1_of_nil rest h
  · exact decodeEdX2_of_nil rest h
  · cases h
    rfl

theorem decodeEd_undefinedEd {op : Byte} (h : undefinedEdOp op = true) (rest : List Byte) :
    decodeEd op rest = .ok (.undefinedEd op, rest) := by
  have hnil : ∀ op : Byte, undefinedEdOp op = true → decodeEd op [] = .ok (.undefinedEd op, []) := by decide
  exact decodeEd_of_nil rest (hnil op h)

/-! ## The round trip -/

/-- Decoding the encoding of a well-formed instruction gives it back (rules R90 .. R116). -/
theorem decode_encode_append (i : Instr) (rest : List Byte) (hwf : i.wf = true) (hend : i.complete = true ∨ rest = []) :
    decode (encode i ++ rest) = .ok (i, rest) := by
  induction i generalizing rest with
  | prefixCb | prefixEd =>
    obtain rfl : rest = [] := hend.resolve_left nofun
    rfl
  | prefixXy xy =>
    obtain rfl : rest = [] := hend.resolve_left nofun
    cases xy <;> rfl
  | xpMain xy i ih =>
    have hi := ih rest (wf_of_plainUnderXy hwf) (.inl (complete_of_plainUnderXy hwf))
    show decode (xy.byte :: (encode i ++ rest)) = _
    rw [decode_xy, decodeAfterXy_plain hwf, hi]
    rfl
  | xpEd xy i ih =>
    obtain ⟨hed, hi⟩ := Bool.and_eq_true_iff.mp hwf
    have hi := ih rest hi (.inl (complete_of_isEd hed))
    show decode (xy.byte :: (encode i ++ rest)) = _
    rw [decode_xy, decodeAfterXy_ed hed, hi]
    rfl
  | xpXp xy i ih =>
    obtain ⟨hxy, hi⟩ := Bool.and_eq_true_iff.mp hwf
    have hi := ih rest hi hend
    show decode (xy.byte :: (encode i ++ rest)) = _
    rw [decode_xy, decodeAfterXy_xy hxy, hi]
    rfl
  | undefinedEd op => exact decodeEd_undefinedEd hwf rest
  | ldMemNnHl nn | ldMemNnA nn | ldHlMemNn nn | ldAMemNn nn | jpNn nn | callNn nn => exact withWord_bytes _ nn rest
  | ldRpNn p nn | ldMemNnRp p nn | ldRpMemNn p nn => cases p <;> exact withWord_bytes _ nn rest
  | jpCcNn cc nn | callCcNn cc nn => cases cc <;> exact withWord_bytes _ nn rest
  | ldXyNn xy nn | ldMemNnXy xy nn | ldXyMemNn xy nn => cases xy <;> exact withWord_bytes _ nn rest
  | addHlRp p | incRp p | decRp p | sbcHlRp p | adcHlRp p => cases p <;> rfl
  | popRp2 p | pushRp2 p => cases p <;> rfl
  | retCc cc => cases cc <;> rfl
  | retn y => fin_cases y <;> cases hwf <;> rfl
  | rst y | neg y | bitMemHl y | resMemHl y | setMemHl y => fin_cases y <;> rfl
  | bitR y r | resR y r | setR y r => fin_cases y <;> cases r <;> rfl
  | ldRR r q => cases r <;> cases q <;> rfl
  | incR r | decR r | ldRN r n | ldRMemHl r | ldMemHlR r | addR r | adcR r | subR r | sbcR r | andR r | xorR r | orR r
  | cpR r | rlcR r | rrcR r | rlR r | rrR r | slaR r | sraR r | sllR r | srlR r | inRC r | outCR r => cases r <;> rfl
  | addXyRp xy p => cases xy <;> cases p <;> rfl
  | incXyHalf xy k | decXyHalf xy k | ldXyHalfN xy k n | addXyHalf xy k | adcXyHalf xy k | subXyHalf xy k | sbcXyHalf xy k
  | andXyHalf xy k | xorXyHalf xy k | orXyHalf xy k | cpXyHalf xy k => cases xy <;> cases k <;> rfl
  | ldRRXy xy r q => cases xy <;> cases r <;> cases q <;> cases hwf <;> rfl
  | ldRXyd xy r d | ldXydR xy d r | rlcXydR xy d r | rrcXydR xy d r | rlXydR xy d r | rrXydR xy d r | slaXydR xy d r
  | sraXydR xy d r | sllXydR xy d r | srlXydR xy d r => cases xy <;> cases r <;> rfl
  | resXyd xy d y | setXyd xy d y => cases xy <;> fin_cases y <;> rfl
  | resXydR xy d y r | setXydR xy d y r => cases xy <;> fin_cases y <;> cases r <;> rfl
  | bitXyd xy d y z => cases xy <;> fin_cases y <;> fin_cases z <;> rfl
  | incXy xy | decXy xy | incXyd xy d | decXyd xy d | ldXydN xy d n | addXyd xy d | adcXyd xy d | subXyd xy d | sbcXyd xy d
  | andXyd xy d | xorXyd xy d | orXyd xy d | cpXyd xy d | popXy xy | exSpXy xy | pushXy xy | jpXy xy | ldSpXy xy
  | rlcXyd xy d | rrcXyd xy d | rlXyd xy d | rrXyd xy d | slaXyd xy d | sraXyd xy d | sllXyd xy d | srlXyd xy d =>
    cases xy <;> rfl
  | _ => rfl

end Sys2Proof
end

section
/-! Whole: a list of bytes on which the decoder cannot run out: an opcode in it and three bytes behind (rules R103, R111 ..
R116). -/

namespace Sys2Proof

/-- The decoder read an instruction with all its bytes. -/
def Decoded.Whole (x : Decoded) : Prop := ∃ i rest, x = .ok (i, rest) ∧ i.complete = true

theorem Decoded.whole_ok {i : Instr} (rest : List Byte) (h : i.complete = true) : Decoded.Whole (.ok (i, rest)) :=
  ⟨i, rest, rfl, h⟩

theorem Decoded.Whole.under {x : Decoded} {f : Instr → Instr} (h : x.Whole)
    (hf : ∀ i, i.complete = true → (f i).complete = true) : (x.under f).Whole := by
  obtain ⟨i, rest, rfl, hi⟩ := h
  exact whole_ok rest (hf i hi)

/-! ## The tables (rules R104 .. R114) -/

theorem whole_decodeX0 (y z : Nat) (n m : Byte) (rest : List Byte) : (decodeX0 y z (n :: m :: rest)).Whole := by
  unfold decodeX0
  dsimp only
  repeat' split
  all_goals exact Decoded.whole_ok _ rfl

theorem whole_decodeX1 (y z : Nat) (rest : List Byte) : (decodeX1 y z rest).Whole := by
  unfold decodeX1
  split <;> exact Decoded.whole_ok _ rfl

theorem whole_decodeX2 (y z : Nat) (rest : List Byte) : (decodeX2 y z rest).Whole := by
  unfold decodeX2 aluR aluMemHl
  repeat' split
  all_goals exact Decoded.whole_ok _ rfl

theorem complete_aluN (y : Nat) (n : Byte) : (aluN y n).complete = true := by
  unfold aluN
  split <;> rfl

/-- Away from the places of CB (z = 3) and of DD, ED and FD (z = 5). -/
theorem whole_decodeX3 {y z : Nat} (n m : Byte) (rest : List Byte) (h3 : z = 3 → y ≠ 1)
    (h5 : z = 5 → y ∈ [0, 1, 2, 4, 6]) : (decodeX3 y z (n :: m :: rest)).Whole := by
  unfold decodeX3
  repeat' split
  any_goals exact Decoded.whole_ok _ rfl
  · exact absurd rfl (h3 rfl)
  · simp at h5
  · simp at h5
  · simp_all
  · exact Decoded.whole_ok _ (complete_aluN y n)

theorem whole_decodeMain {op : Byte} (n m : Byte) (rest : List Byte) (h : op ∉ [0xCB#8, 0xDD#8, 0xED#8, 0xFD#8]) :
    (decodeMain op (n :: m :: rest)).Whole := by
  have hplace : ∀ op : Byte, op ∉ [0xCB#8, 0xDD#8, 0xED#8, 0xFD#8] → field op 6 2 = 3 →
      (field op 0 3 = 3 → field op 3 3 ≠ 1) ∧ (field op 0 3 = 5 → field op 3 3 ∈ [0, 1, 2, 4, 6]) := by decide
  have hlt : field op 6 2 < 4 := Nat.mod_lt _ (by decide)
  obtain hx | hx | hx | hx : field op 6 2 = 0 ∨ field op 6 2 = 1 ∨ field op 6 2 = 2 ∨ field op 6 2 = 3 := by omega
  · simpa only [decodeMain, hx] using whole_decodeX0 ..
  · simpa only [decodeMain, hx] using whole_decodeX1 ..
  · simpa only [decodeMain, hx] using whole_decodeX2 ..
  · obtain ⟨h3, h5⟩ := hplace op h hx
    simpa only [decodeMain, hx] using whole_decodeX3 n m rest h3 h5

theorem whole_decodeCb (op : Byte) (rest : List Byte) : (decodeCb op rest).Whole := by
  unfold decodeCb rotR rotMemHl
  dsimp only
  repeat' split
  all_goals exact Decoded.whole_ok _ rfl

theorem whole_decodeEd (op n m : Byte) (rest : List Byte) : (decodeEd op (n :: m :: rest)).Whole := by
  unfold decodeEd decodeEdX1 decodeEdX2
  dsimp only
  repeat' split
  all_goals exact Decoded.whole_ok _ rfl

theorem whole_decodeXyCb (xy : Xy) (d op : Byte) (rest : List Byte) : (decodeXyCb xy (d :: op :: rest)).Whole := by
  unfold decodeXyCb rotXyd rotXydR
  dsimp only
  repeat' split
  all_goals exact Decoded.whole_ok _ rfl

theorem whole_decodeXyMain {xy : Xy} {op n m : Byte} {rest : List Byte} {x : Decoded}
    (h : decodeXyMain xy op (n :: m :: rest) = some x) : x.Whole := by
  unfold decodeXyMain aluXyHalf aluXyd at h
  dsimp only at h
  repeat' split at h
  all_goals cases h
  all_goals exact Decoded.whole_ok _ rfl

/-! ## Runs of index prefixes (rule R103) -/

theorem exists_eq_byte {b : Byte} : (∃ xy, b = Xy.byte xy) ↔ b = 0xDD#8 ∨ b = 0xFD#8 :=
  ⟨fun ⟨xy, h⟩ => by cases xy <;> simp [h, Xy.byte], fun h => h.elim (⟨.ix, ·⟩) (⟨.iy, ·⟩)⟩

/-- Nothing but index prefixes: the decoder reads them all as a run without an instruction. -/
theorem decodeAfterXy_prefixes (xy : Xy) {bytes : List Byte} (h : ∀ b ∈ bytes, ∃ xy, b = Xy.byte xy) :
    ∃ i, decodeAfterXy xy bytes = .ok (i, []) ∧ i.complete = false := by
  induction bytes generalizing xy with
  | nil => exact ⟨_, rfl, rfl⟩
  | cons op rest ih =>
    obtain ⟨⟨xy', rfl⟩, hrest⟩ := List.forall_mem_cons.mp h
    obtain ⟨i, hi, hinc⟩ := ih xy' hrest
    exact ⟨.xpXp xy i, by rw [decodeAfterXy_byte, hi]; rfl, hinc⟩

theorem whole_decodeAfterXy_op (xy : Xy) {op : Byte} {rest : List Byte} (hlen : 3 ≤ rest.length)
    (hop : ∀ xy, op ≠ Xy.byte xy) : (decodeAfterXy xy (op :: rest)).Whole := by
  obtain _ | ⟨l, _ | ⟨m, _ | ⟨n, rest⟩⟩⟩ := rest <;> simp at hlen
  have hdd : op ≠ 0xDD#8 := hop .ix
  have hfd : op ≠ 0xFD#8 := hop .iy
  rw [decodeAfterXy, if_neg hdd, if_neg hfd]
  split
  · exact whole_decodeXyCb ..
  next hcb =>
    split
    · exact (whole_decodeEd ..).under fun _ _ => rfl
    next hed =>
      split
      next x hx => exact whole_decodeXyMain hx
      · exact (whole_decodeMain l m _ (by simp [hcb, hdd, hed, hfd])).under fun _ _ => rfl

theorem whole_decode_op {op : Byte} {rest : List Byte} (hlen : 3 ≤ rest.length) (hop : ∀ xy, op ≠ Xy.byte xy) :
    (decode (op :: rest)).Whole := by
  obtain _ | ⟨l, _ | ⟨m, _ | ⟨n, rest⟩⟩⟩ := rest <;> simp at hlen
  have hdd : op ≠ 0xDD#8 := hop .ix
  have hfd : op ≠ 0xFD#8 := hop .iy
  rw [decode, if_neg hdd, if_neg hfd]
  split
  · exact whole_decodeCb ..
  next hcb =>
    split
    · exact whole_decodeEd ..
    next hed => exact whole_decodeMain l m _ (by simp [hcb, hdd, hed, hfd])

section
variable {bytes : List Byte} {k : Nat} {b : Byte}

/-- Three bytes behind a byte that is neither DD nor FD are enough, whatever stands in front of it. -/
theorem whole_decodeAfterXy (xy : Xy) (hb : bytes[k]? = some b) (hk : k + 3 < bytes.length)
    (hop : ∀ xy, b ≠ Xy.byte xy) : (decodeAfterXy xy bytes).Whole := by
  induction bytes generalizing xy k with
  | nil => cases hb
  | cons op rest ih =>
    rw [List.length_cons] at hk
    by_cases hxy : ∃ xy, op = Xy.byte xy
    · obtain ⟨xy', rfl⟩ := hxy
      obtain _ | k := k
      · cases hb
        exact absurd rfl (hop xy')
      · rw [decodeAfterXy_byte]
        exact (ih xy' hb (by omega)).under fun _ h => h
    · exact whole_decodeAfterXy_op xy (by omega) (not_exists.mp hxy)

theorem whole_decode (hb : bytes[k]? = some b) (hk : k + 3 < bytes.length) (hop : ∀ xy, b ≠ Xy.byte xy) :
    (decode bytes).Whole := by
  cases bytes with
  | nil => cases hb
  | cons op rest =>
    rw [List.length_cons] at hk
    by_cases hxy : ∃ xy, op = Xy.byte xy
    · obtain ⟨xy', rfl⟩ := hxy
      obtain _ | k := k
      · cases hb
        exact absurd rfl (hop xy')
      · rw [decode_xy]
        exact whole_decodeAfterXy xy' hb (by omega) hop
    · exact whole_decode_op (by omega) (not_exists.mp hxy)

end

end Sys2Proof
end

section
/-! Fetch: the instruction a step runs, from the bytes in memory at PC (rules R64, R102, R103). -/

namespace Sys2Proof.Machine

/-! ## The bytes from an address on (rules R25, R64) -/

theorem length_fetchBytes (m : Memory) (n : Nat) (a : Word) : (fetchBytes m n a).length = n := by
  induction n generalizing a with
  | zero => rfl
  | succ n ih => rw [fetchBytes, List.length_cons, ih]

theorem getElem?_fetchBytes (m : Memory) {n k : Nat} (a : Word) (hk : k < n) :
    (fetchBytes m n a)[k]? = some (m.get (a + BitVec.ofNat 16 k).toNat) := by
  induction n generalizing a k with
  | zero => omega
  | succ n ih =>
    cases k with
    | zero => simp [fetchBytes]
    | succ k =>
      have hnext : a + 1#16 + BitVec.ofNat 16 k = a + BitVec.ofNat 16 (k + 1) := by
        rw [BitVec.add_assoc, Nat.add_comm k 1, BitVec.ofNat_add]
      rw [fetchBytes, List.getElem?_cons_succ, ih (a + 1#16) (by omega), hnext]

theorem exists_of_mem_fetchBytes {m : Memory} {n : Nat} {a : Word} {b : Byte} (h : b ∈ fetchBytes m n a) :
    ∃ x : Word, b = m.get x.toNat := by
  obtain ⟨k, hk⟩ := List.mem_iff_getElem?.mp h
  have hlt : k < n := by
    have := (List.getElem?_eq_some_iff.mp hk).1
    rwa [length_fetchBytes] at this
  rw [getElem?_fetchBytes m a hlt] at hk
  exact ⟨_, (Option.some.inj hk).symm⟩

/-- Bytes that stand in memory from an address on are what is read first there. -/
theorem prefix_fetchBytes {m : Memory} {n : Nat} {a : Word} {bytes : List Byte} (hlen : bytes.length ≤ n)
    (h : ∀ k, k < bytes.length → bytes[k]? = some (m.get (a + BitVec.ofNat 16 k).toNat)) :
    bytes <+: fetchBytes m n a := by
  rw [List.prefix_iff_getElem?]
  intro k hk
  rw [getElem?_fetchBytes m a (by omega), ← h k hk, List.getElem?_eq_getElem hk]

/-! ## The instruction at PC (rules R102, R103) -/

theorem fetchInstr_of_decode {s : State} {i : Instr} {rest : List Byte}
    (h : decode (fetchBytes s.mem fetchLimit s.cpu.pc) = .ok (i, rest)) (hi : i.complete = true) :
    s.fetchInstr = some i := by
  simp [State.fetchInstr, h, hi]

/-- An instruction whose bytes stand at PC is the one fetched. -/
theorem fetchInstr_of_encode {s : State} {i : Instr} (hwf : i.wf = true) (hi : i.complete = true)
    (hlen : (encode i).length ≤ fetchLimit)
    (h : ∀ k, k < (encode i).length → (encode i)[k]? = some (s.read8 (s.cpu.pc + BitVec.ofNat 16 k))) :
    s.fetchInstr = some i := by
  obtain ⟨rest, e⟩ := prefix_fetchBytes (m := s.mem) hlen h
  refine fetchInstr_of_decode (rest := rest) ?_ hi
  rw [← e, decode_encode_append i rest hwf (.inl hi)]

/-- No instruction is found exactly when all of memory is index prefixes: the first other byte from PC on is met within
65,536 bytes, and the four bytes more that are looked at complete what starts there. -/
theorem fetchInstr_eq_none_iff (s : State) :
    s.fetchInstr = none ↔ ∀ x : Word, s.read8 x = 0xDD#8 ∨ s.read8 x = 0xFD#8 := by
  constructor
  · intro hnone x
    by_contra hx
    rw [← exists_eq_byte, not_exists] at hx
    have hk : (x - s.cpu.pc).toNat < 65536 := (x - s.cpu.pc).isLt
    have hat := getElem?_fetchBytes s.mem (n := fetchLimit) s.cpu.pc (hk.trans (by decide))
    rw [BitVec.ofNat_toNat, BitVec.setWidth_eq, BitVec.add_comm, BitVec.sub_add_cancel] at hat
    obtain ⟨i, rest, e, hi⟩ := whole_decode hat (by rw [length_fetchBytes, fetchLimit]; omega) hx
    simp [fetchInstr_of_decode e hi] at hnone
  · intro h
    have hall : ∀ n a, ∀ b ∈ fetchBytes s.mem n a, ∃ xy, b = Xy.byte xy := fun n a b hb => by
      obtain ⟨x, rfl⟩ := exists_of_mem_fetchBytes hb
      exact exists_eq_byte.mpr (h x)
    obtain ⟨xy, hfirst⟩ := exists_eq_byte.mpr (h s.cpu.pc)
    obtain ⟨i, hi, hinc⟩ := decodeAfterXy_prefixes xy (hall 65539 (s.cpu.pc + 1#16))
    have hdecode : decode (fetchBytes s.mem fetchLimit s.cpu.pc) = .ok (i, []) := by
      rw [← hi, ← decode_xy, ← hfirst]
      rfl
    simp [State.fetchInstr, hdecode, hinc]

/-! ## The step that runs it (rules R102, R540) -/

theorem beginStep_fetchInstr (s : State) : s.beginStep.fetchInstr = s.fetchInstr := by
  cases h : s.cpu.eiDelay <;> simp [State.beginStep, State.fetchInstr, h]

theorem beginStep_halted (s : State) : s.beginStep.cpu.halted = s.cpu.halted := by
  cases h : s.cpu.eiDelay <;> simp [State.beginStep, h]

section
variable {s : State}

/-- An awake machine runs the instruction at PC. -/
theorem step_eq_runAs {i : Instr} (hr : s.running) (hs : s.schedule = []) (hh : s.cpu.halted = false)
    (h : s.fetchInstr = some i) : step s = s.runAs i := by
  have hcpu : s.cpuStep = exec i s.beginStep := by
    simp [State.cpuStep, beginStep_halted, beginStep_fetchInstr, hh, h]
  rw [step_eq_iterate hr hs, State.iterate, hcpu]
  rfl

theorem step_of_no_instr (hr : s.running) (hs : s.schedule = []) (hh : s.cpu.halted = false)
    (h : s.fetchInstr = none) : step s = .fault .endlessIndexBytes := by
  have hcpu : s.cpuStep = .fault .endlessIndexBytes := by
    simp [State.cpuStep, beginStep_halted, beginStep_fetchInstr, hh, h]
  rw [step_eq_iterate hr hs, State.iterate, hcpu]

end

/-- An instruction's step always answers a next state. -/
theorem runAs_answers (s : State) (i : Instr) : ∃ t, s.runAs i = .next t := by
  obtain ⟨t, ht, -⟩ := exec_effect i s.beginStep
  unfold State.runAs
  rw [ht]
  dsimp only
  split <;> exact ⟨_, rfl⟩

/-- Settles O6: the fetch reads the encoder's bytes back, and finds nothing in a memory of index prefixes alone. -/
theorem stepRunsEncoded : Obligations.StepRunsEncoded := by
  refine ⟨fun s i hr hs hh hwf hi hlen h => ?_, fun s hr hs hh => ?_⟩
  · exact step_eq_runAs hr hs hh (fetchInstr_of_encode hwf hi (hlen.trans (by decide)) h)
  · rw [← fetchInstr_eq_none_iff]
    refine ⟨fun hstep => ?_, step_of_no_instr hr hs hh⟩
    by_contra hsome
    obtain ⟨i, hi⟩ := Option.ne_none_iff_exists'.mp hsome
    obtain ⟨t, ht⟩ := runAs_answers s i
    rw [step_eq_runAs hr hs hh hi, ht] at hstep
    cases hstep

end Sys2Proof.Machine
end

section
/-! ReadBack: whatever the decoder reads is the encoding of a well-formed instruction (rules R90 .. R116). -/

namespace Sys2Proof

/-! ## Operand fields (rules R91 .. R96) -/

theorem op3_fields (op : Byte) : op3 (field op 6 2) (field op 3 3) (field op 0 3) = op := by
  revert op
  decide

theorem field_lt (op : Byte) (lo w : Nat) : field op lo w < 2 ^ w := Nat.mod_lt _ (Nat.two_pow_pos w)

theorem field_cases (op : Byte) : field op 6 2 = 0 ∨ field op 6 2 = 1 ∨ field op 6 2 = 2 ∨ field op 6 2 = 3 := by
  have := field_lt op 6 2
  omega

theorem Reg8.code_of_ofCode {k : Nat} (hk : k < 8) {r : Reg8} (h : Reg8.ofCode k = some r) : r.code = k := by
  interval_cases k <;> cases h <;> rfl

theorem Reg8.eq_six_of_ofCode {k : Nat} (h : Reg8.ofCode k = none) : k = 6 := by
  unfold Reg8.ofCode at h
  split at h <;> cases h
  rfl

/-! ## The `alu` and `rot` fields -/

/-- The instruction is well formed and its bytes are these. -/
def Instr.Writes (i : Instr) (bytes : List Byte) : Prop := encode i = bytes ∧ i.wf = true

section
variable {y : Nat} (hy : y < 8)
include hy

theorem writes_aluR (r : Reg8) : (aluR y r).Writes [op3 2 y r.code] := by
  interval_cases y <;> exact ⟨rfl, rfl⟩

theorem writes_aluMemHl : (aluMemHl y).Writes [op3 2 y 6] := by
  interval_cases y <;> exact ⟨rfl, rfl⟩

theorem writes_aluXyd (xy : Xy) (d : Byte) : (aluXyd y xy d).Writes [xy.byte, op3 2 y 6, d] := by
  interval_cases y <;> exact ⟨rfl, rfl⟩

theorem writes_aluXyHalf (xy : Xy) (k : Half) : (aluXyHalf y xy k).Writes [xy.byte, op3 2 y k.code] := by
  interval_cases y <;> exact ⟨rfl, rfl⟩

theorem writes_rotR (r : Reg8) : (rotR y r).Writes [0xCB#8, op3 0 y r.code] := by
  interval_cases y <;> exact ⟨rfl, rfl⟩

theorem writes_rotMemHl : (rotMemHl y).Writes [0xCB#8, op3 0 y 6] := by
  interval_cases y <;> exact ⟨rfl, rfl⟩

theorem writes_rotXyd (xy : Xy) (d : Byte) : (rotXyd y xy d).Writes [xy.byte, 0xCB#8, d, op3 0 y 6] := by
  interval_cases y <;> exact ⟨rfl, rfl⟩

theorem writes_rotXydR (xy : Xy) (d : Byte) (r : Reg8) :
    (rotXydR y xy d r).Writes [xy.byte, 0xCB#8, d, op3 0 y r.code] := by
  interval_cases y <;> exact ⟨rfl, rfl⟩

end

/-! ## Reading back -/

/-- Behind the bytes `opcode`, whatever instruction `x` took from `tail` is well formed, and its bytes are those and the
ones taken. -/
def Decoded.ReadsBack (x : Decoded) (opcode tail : List Byte) : Prop :=
  ∀ i rest, x = .ok (i, rest) → opcode ++ tail = encode i ++ rest ∧ i.wf = true

section
variable {opcode tail : List Byte}

theorem readsBack_just {i : Instr} (h : i.Writes opcode) : (just i tail).ReadsBack opcode tail := by
  rintro _ _ ⟨⟩
  exact ⟨by rw [h.1], h.2⟩

/-- The same where the last opcode byte is put together from its fields. -/
theorem readsBack_fields (table : List Byte) {b op : Byte} {i : Instr} (h : i.Writes (table ++ [b])) (e : b = op) :
    (just i tail).ReadsBack (table ++ [op]) tail := e ▸ readsBack_just h

theorem readsBack_withByte {f : Byte → Instr} (h : ∀ n, (f n).Writes (opcode ++ [n])) :
    (withByte f tail).ReadsBack opcode tail := by
  cases tail with
  | nil => rintro _ _ ⟨⟩
  | cons n rest =>
    rintro _ _ ⟨⟩
    exact ⟨by simp [(h n).1], (h n).2⟩

theorem readsBack_withTwoBytes {f : Byte → Byte → Instr} (h : ∀ d n, (f d n).Writes (opcode ++ [d, n])) :
    (withTwoBytes f tail).ReadsBack opcode tail := by
  match tail with
  | [] | [_] => rintro _ _ ⟨⟩
  | d :: n :: rest =>
    rintro _ _ ⟨⟩
    exact ⟨by simp [(h d n).1], (h d n).2⟩

theorem readsBack_withWord {f : Word → Instr} (h : ∀ nn, (f nn).Writes (opcode ++ [loByte nn, hiByte nn])) :
    (withWord f tail).ReadsBack opcode tail := by
  match tail with
  | [] | [_] => rintro _ _ ⟨⟩
  | lo :: hi :: rest =>
    rintro _ _ ⟨⟩
    exact ⟨by simp [(h (mkWord hi lo)).1], (h (mkWord hi lo)).2⟩

end

/-! ## The main table (rules R108 .. R111) -/

section
variable {y z : Nat} (hy : y < 8) (hz : z < 8) (tail : List Byte)
include hy hz

/-- Each place of this quarter holds an instruction without operand, one with a byte, or one with a word. -/
theorem readsBack_decodeX0 : (decodeX0 y z tail).ReadsBack [op3 0 y z] tail := by
  interval_cases y <;> interval_cases z
  any_goals exact readsBack_just ⟨rfl, rfl⟩
  any_goals exact readsBack_withByte fun _ => ⟨rfl, rfl⟩
  all_goals exact readsBack_withWord fun _ => ⟨rfl, rfl⟩

theorem readsBack_decodeX1 : (decodeX1 y z tail).ReadsBack [op3 1 y z] tail := by
  unfold decodeX1
  split
  next r q hr hq => exact readsBack_just ⟨by rw [← Reg8.code_of_ofCode hy hr, ← Reg8.code_of_ofCode hz hq]; rfl, rfl⟩
  next r hr hq => exact readsBack_just ⟨by rw [← Reg8.code_of_ofCode hy hr, Reg8.eq_six_of_ofCode hq]; rfl, rfl⟩
  next q hr hq => exact readsBack_just ⟨by rw [Reg8.eq_six_of_ofCode hr, ← Reg8.code_of_ofCode hz hq]; rfl, rfl⟩
  next hr hq => exact readsBack_just ⟨by rw [Reg8.eq_six_of_ofCode hr, Reg8.eq_six_of_ofCode hq]; rfl, rfl⟩

theorem readsBack_decodeX2 : (decodeX2 y z tail).ReadsBack [op3 2 y z] tail := by
  unfold decodeX2
  split
  next r hr =>
    rw [← Reg8.code_of_ofCode hz hr]
    exact readsBack_just (writes_aluR hy r)
  next hr =>
    rw [Reg8.eq_six_of_ofCode hr]
    exact readsBack_just (writes_aluMemHl hy)

/-- And so does each place of this one. -/
theorem readsBack_decodeX3 : (decodeX3 y z tail).ReadsBack [op3 3 y z] tail := by
  interval_cases y <;> interval_cases z
  any_goals exact readsBack_just ⟨rfl, rfl⟩
  any_goals exact readsBack_withByte fun _ => ⟨rfl, rfl⟩
  all_goals exact readsBack_withWord fun _ => ⟨rfl, rfl⟩

end

theorem readsBack_decodeMain (op : Byte) (tail : List Byte) : (decodeMain op tail).ReadsBack [op] tail := by
  have hy := field_lt op 3 3
  have hz := field_lt op 0 3
  have e := op3_fields op
  obtain hx | hx | hx | hx := field_cases op <;> rw [hx] at e
  · simpa only [decodeMain, hx, e] using readsBack_decodeX0 hy hz tail
  · simpa only [decodeMain, hx, e] using readsBack_decodeX1 hy hz tail
  · simpa only [decodeMain, hx, e] using readsBack_decodeX2 hy hz tail
  · simpa only [decodeMain, hx, e] using readsBack_decodeX3 hy hz tail

/-! ## The CB table and the indexed bit table (rules R106, R112) -/

section
variable {op : Byte} {x : Nat} (hx : field op 6 2 = x)
include hx

/-- An opcode byte whose low field names a register. -/
theorem op3_register {r : Reg8} (hr : Reg8.ofCode (field op 0 3) = some r) : op3 x (field op 3 3) r.code = op := by
  rw [← hx, Reg8.code_of_ofCode (field_lt op 0 3) hr, op3_fields]

/-- An opcode byte whose low field is that of the memory operand. -/
theorem op3_memory (hr : Reg8.ofCode (field op 0 3) = none) : op3 x (field op 3 3) 6 = op := by
  have h := op3_fields op
  rwa [hx, Reg8.eq_six_of_ofCode hr] at h

end

theorem readsBack_decodeCb (op : Byte) (tail : List Byte) : (decodeCb op tail).ReadsBack [0xCB#8, op] tail := by
  have hy := field_lt op 3 3
  obtain hx | hx | hx | hx := field_cases op <;> cases hr : Reg8.ofCode (field op 0 3) <;> simp only [decodeCb, hx, hr]
  · exact readsBack_fields [0xCB#8] (writes_rotMemHl hy) (op3_memory hx hr)
  · exact readsBack_fields [0xCB#8] (writes_rotR hy _) (op3_register hx hr)
  · exact readsBack_fields [0xCB#8] ⟨rfl, rfl⟩ (op3_memory hx hr)
  · exact readsBack_fields [0xCB#8] ⟨rfl, rfl⟩ (op3_register hx hr)
  · exact readsBack_fields [0xCB#8] ⟨rfl, rfl⟩ (op3_memory hx hr)
  · exact readsBack_fields [0xCB#8] ⟨rfl, rfl⟩ (op3_register hx hr)
  · exact readsBack_fields [0xCB#8] ⟨rfl, rfl⟩ (op3_memory hx hr)
  · exact readsBack_fields [0xCB#8] ⟨rfl, rfl⟩ (op3_register hx hr)

theorem readsBack_decodeXyCb (xy : Xy) (bytes : List Byte) :
    (decodeXyCb xy bytes).ReadsBack [xy.byte, 0xCB#8] bytes := by
  match bytes with
  | [] | [_] => rintro _ _ ⟨⟩
  | d :: op :: rest =>
    show Decoded.ReadsBack _ [xy.byte, 0xCB#8, d, op] rest
    have hy := field_lt op 3 3
    obtain hx | hx | hx | hx := field_cases op
    · cases hr : Reg8.ofCode (field op 0 3) <;> simp only [decodeXyCb, hx, hr]
      · exact readsBack_fields [xy.byte, 0xCB#8, d] (writes_rotXyd hy xy d) (op3_memory hx hr)
      · exact readsBack_fields [xy.byte, 0xCB#8, d] (writes_rotXydR hy xy d _) (op3_register hx hr)
    · have e := op3_fields op
      rw [hx] at e
      simp only [decodeXyCb, hx]
      exact readsBack_fields [xy.byte, 0xCB#8, d] ⟨rfl, rfl⟩ e
    all_goals
      cases hr : Reg8.ofCode (field op 0 3) <;> simp only [decodeXyCb, hx, hr]
      · exact readsBack_fields [xy.byte, 0xCB#8, d] ⟨rfl, rfl⟩ (op3_memory hx hr)
      · exact readsBack_fields [xy.byte, 0xCB#8, d] ⟨rfl, rfl⟩ (op3_register hx hr)

/-! ## The ED table (rules R113, R114) -/

/-- The sub-opcodes of `LD (nn),rp` and `LD rp,(nn)`, the only ED instructions with operand bytes. -/
def edWordOps : List Byte := [0x43#8, 0x4B#8, 0x53#8, 0x5B#8, 0x63#8, 0x6B#8, 0x73#8, 0x7B#8]

/-- Every other sub-opcode stands for an instruction alone, whose two bytes are ED and it. -/
def edEntryOk (op : Byte) : Bool :=
  match decodeEd op [] with
  | .ok (i, rest) => rest.isEmpty && encode i == [0xED#8, op] && i.wf && i.isEd
  | .error _ => edWordOps.contains op

theorem edEntryOk_all (op : Byte) : edEntryOk op = true := by
  revert op
  decide

/-- What the ED table holds for a sub-opcode. -/
theorem decodeEd_entry (op : Byte) (tail : List Byte) :
    (∃ i, i.Writes [0xED#8, op] ∧ i.isEd = true ∧ decodeEd op tail = just i tail) ∨
      ∃ f, (∀ nn, (f nn).Writes [0xED#8, op, loByte nn, hiByte nn] ∧ (f nn).isEd = true) ∧
        decodeEd op tail = withWord f tail := by
  have h := edEntryOk_all op
  unfold edEntryOk at h
  split at h
  next i rest hi =>
    simp only [Bool.and_eq_true, beq_iff_eq, List.isEmpty_iff] at h
    obtain ⟨⟨⟨rfl, he⟩, hwf⟩, hed⟩ := h
    exact .inl ⟨i, ⟨he, hwf⟩, hed, decodeEd_of_nil tail hi⟩
  next =>
    simp only [edWordOps, List.contains_eq_mem, decide_eq_true_eq, List.mem_cons, List.not_mem_nil, or_false] at h
    obtain rfl | rfl | rfl | rfl | rfl | rfl | rfl | rfl := h <;>
      exact .inr ⟨_, fun _ => ⟨⟨rfl, rfl⟩, rfl⟩, rfl⟩

theorem readsBack_decodeEd (op : Byte) (tail : List Byte) : (decodeEd op tail).ReadsBack [0xED#8, op] tail := by
  obtain ⟨i, hi, -, e⟩ | ⟨f, hf, e⟩ := decodeEd_entry op tail <;> rw [e]
  · exact readsBack_just hi
  · exact readsBack_withWord fun nn => (hf nn).1

theorem isEd_of_decodeEd {op : Byte} {tail rest : List Byte} {i : Instr} (h : decodeEd op tail = .ok (i, rest)) :
    i.isEd = true := by
  obtain ⟨j, -, hj, e⟩ | ⟨f, hf, e⟩ := decodeEd_entry op tail <;> rw [e] at h
  · cases h
    exact hj
  · unfold withWord at h
    split at h <;> cases h
    exact (hf _).2

/-! ## Behind DD and FD (rules R103 .. R107) -/

theorem Half.code_of_ofCode {z : Nat} {k : Half} (h : Half.ofCode z = some k) : k.code = z := by
  unfold Half.ofCode at h
  split at h <;> cases h <;> rfl

theorem readsBack_decodeXyMain {xy : Xy} {op : Byte} {tail : List Byte} {w : Decoded}
    (h : decodeXyMain xy op tail = some w) : w.ReadsBack [xy.byte, op] tail := by
  have hy := field_lt op 3 3
  have hz := field_lt op 0 3
  have e := op3_fields op
  obtain hx | hx | hx | hx := field_cases op <;> simp only [decodeXyMain, hx] at h <;> rw [← e, hx] <;> clear e <;>
    generalize field op 3 3 = y, field op 0 3 = z at *
  · repeat' split at h
    all_goals cases h
    any_goals exact readsBack_just ⟨rfl, rfl⟩
    any_goals exact readsBack_withByte fun _ => ⟨rfl, rfl⟩
    any_goals exact readsBack_withWord fun _ => ⟨rfl, rfl⟩
    exact readsBack_withTwoBytes fun _ _ => ⟨rfl, rfl⟩
  · split at h
    next r q hr hq =>
      split at h <;> cases h
      next hhalf =>
        rw [← Reg8.code_of_ofCode hy hr, ← Reg8.code_of_ofCode hz hq]
        exact readsBack_just ⟨rfl, hhalf⟩
    next r hr hq =>
      cases h
      rw [← Reg8.code_of_ofCode hy hr, Reg8.eq_six_of_ofCode hq]
      exact readsBack_withByte fun _ => ⟨rfl, rfl⟩
    next q hr hq =>
      cases h
      rw [Reg8.eq_six_of_ofCode hr, ← Reg8.code_of_ofCode hz hq]
      exact readsBack_withByte fun _ => ⟨rfl, rfl⟩
    next => cases h
  · split at h
    next k hk =>
      cases h
      rw [← Half.code_of_ofCode hk]
      exact readsBack_just (writes_aluXyHalf hy xy k)
    next =>
      split at h <;> cases h
      next hz6 =>
        subst hz6
        exact readsBack_withByte (writes_aluXyd hy xy)
  · split at h <;> cases h <;> exact readsBack_just ⟨rfl, rfl⟩

/-! ## The table an encoding belongs to, by its first byte -/

/-- The first byte says whether an instruction is one of the main table that DD and FD leave as it is, and whether it
begins with DD or FD itself. -/
theorem encode_first_byte (i : Instr) :
    ∃ op bytes, encode i = op :: bytes ∧ i.plainUnderXy = plainOp op ∧
      i.startsWithXy = (op == 0xDD#8 || op == 0xFD#8) := by
  cases h : i.startsWithXy with
  | true =>
    have hplain : i.plainUnderXy = false := by cases i <;> cases h <;> rfl
    obtain ⟨xy, bytes, e⟩ := encode_of_startsWithXy h
    rw [hplain]
    cases xy <;> exact ⟨_, bytes, e, rfl, rfl⟩
  | false =>
    cases i with
    | addHlRp p | ldRpNn p _ | incRp p | decRp p => cases p <;> exact ⟨_, _, rfl, rfl, rfl⟩
    | popRp2 p | pushRp2 p => cases p <;> exact ⟨_, _, rfl, rfl, rfl⟩
    | incR r | decR r | ldRN r _ | addR r | adcR r | subR r | sbcR r | andR r | xorR r | orR r | cpR r | ldRMemHl r
    | ldMemHlR r => cases r <;> exact ⟨_, _, rfl, rfl, rfl⟩
    | ldRR r q => cases r <;> cases q <;> exact ⟨_, _, rfl, rfl, rfl⟩
    | retCc cc | jpCcNn cc _ | callCcNn cc _ => cases cc <;> exact ⟨_, _, rfl, rfl, rfl⟩
    | rst y => fin_cases y <;> exact ⟨_, _, rfl, rfl, rfl⟩
    | _ => cases h <;> exact ⟨_, _, rfl, rfl, rfl⟩

/-- The table of what was read, by the opcode it was read behind. -/
theorem Decoded.ReadsBack.table {x : Decoded} {op : Byte} {opcode tail rest : List Byte} {i : Instr}
    (h : x.ReadsBack (op :: opcode) tail) (e : x = .ok (i, rest)) :
    i.plainUnderXy = plainOp op ∧ i.startsWithXy = (op == 0xDD#8 || op == 0xFD#8) := by
  obtain ⟨b, bytes, hb, htable⟩ := encode_first_byte i
  have hbytes := (h i rest e).1
  rw [hb] at hbytes
  rwa [(List.cons.inj hbytes).1]

/-! ## The decoder -/

theorem Decoded.ReadsBack.under {x : Decoded} {opcode tail : List Byte} {xy : Xy} {f : Instr → Instr}
    (h : x.ReadsBack opcode tail) (hf : ∀ i, encode (f i) = xy.byte :: encode i)
    (hwf : ∀ i rest, x = .ok (i, rest) → i.wf = true → (f i).wf = true) :
    (x.under f).ReadsBack (xy.byte :: opcode) tail := by
  match x with
  | .error _ => rintro _ _ ⟨⟩
  | .ok (i, rest) =>
    rintro _ _ ⟨⟩
    obtain ⟨hbytes, hi⟩ := h i rest rfl
    exact ⟨by rw [hf, List.cons_append, hbytes, List.cons_append], hwf i rest rfl hi⟩

theorem plainOp_of_decodeXyMain {xy : Xy} {op : Byte} {tail : List Byte} (hop : op ∉ [0xCB#8, 0xDD#8, 0xED#8, 0xFD#8])
    (h : decodeXyMain xy op tail = none) : plainOp op = true := by
  have hnone : (decodeXyMain .ix op []).isNone = true := by rw [← isNone_decodeXyMain xy op tail, h, Option.isNone_none]
  simpa [plainOp, hnone, and_assoc] using hop

theorem readsBack_decodeAfterXy_op (xy : Xy) {op : Byte} (tail : List Byte) (hop : ∀ xy, op ≠ Xy.byte xy) :
    (decodeAfterXy xy (op :: tail)).ReadsBack [xy.byte] (op :: tail) := by
  have hdd : op ≠ 0xDD#8 := hop .ix
  have hfd : op ≠ 0xFD#8 := hop .iy
  unfold decodeAfterXy
  rw [if_neg hdd, if_neg hfd]
  split
  next hcb => exact hcb ▸ readsBack_decodeXyCb xy tail
  next hcb =>
    split
    next hed =>
      subst hed
      cases tail with
      | nil => rintro _ _ ⟨⟩
      | cons op2 tail =>
        exact (readsBack_decodeEd op2 tail).under (f := .xpEd xy) (fun _ => rfl)
          fun _ _ hi hwf => Bool.and_eq_true_iff.mpr ⟨isEd_of_decodeEd hi, hwf⟩
    next hed =>
      split
      next hw => exact readsBack_decodeXyMain hw
      next hnone =>
        have hplain := plainOp_of_decodeXyMain (by simp [hcb, hdd, hed, hfd]) hnone
        exact (readsBack_decodeMain op tail).under (f := .xpMain xy) (fun _ => rfl)
          fun _ _ hi _ => ((readsBack_decodeMain op tail).table hi).1.trans hplain

theorem readsBack_decodeAfterXy (xy : Xy) (bytes : List Byte) :
    (decodeAfterXy xy bytes).ReadsBack [xy.byte] bytes := by
  induction bytes generalizing xy with
  | nil => exact readsBack_just ⟨rfl, rfl⟩
  | cons op tail ih =>
    by_cases hxy : ∃ xy, op = Xy.byte xy
    · obtain ⟨xy', rfl⟩ := hxy
      rw [decodeAfterXy_byte]
      refine (ih xy').under (f := .xpXp xy) (fun _ => rfl) fun i rest hi hwf => ?_
      have hstart : i.startsWithXy = true := ((ih xy').table hi).2.trans (by cases xy' <;> rfl)
      exact Bool.and_eq_true_iff.mpr ⟨hstart, hwf⟩
    · exact readsBack_decodeAfterXy_op xy tail (not_exists.mp hxy)

theorem readsBack_decode_op {op : Byte} (tail : List Byte) (hop : ∀ xy, op ≠ Xy.byte xy) :
    (decode (op :: tail)).ReadsBack [op] tail := by
  have hdd : op ≠ 0xDD#8 := hop .ix
  have hfd : op ≠ 0xFD#8 := hop .iy
  unfold decode
  dsimp only
  rw [if_neg hdd, if_neg hfd]
  split
  next hcb =>
    subst hcb
    cases tail with
    | nil => exact readsBack_just ⟨rfl, rfl⟩
    | cons op2 tail => exact readsBack_decodeCb op2 tail
  next hcb =>
    split
    next hed =>
      subst hed
      cases tail with
      | nil => exact readsBack_just ⟨rfl, rfl⟩
      | cons op2 tail => exact readsBack_decodeEd op2 tail
    next hed => exact readsBack_decodeMain op tail

theorem readsBack_decode (bytes : List Byte) : (decode bytes).ReadsBack [] bytes := by
  cases bytes with
  | nil => rintro _ _ ⟨⟩
  | cons op tail =>
    by_cases hxy : ∃ xy, op = Xy.byte xy
    · obtain ⟨xy, rfl⟩ := hxy
      rw [decode_xy]
      exact readsBack_decodeAfterXy xy tail
    · exact readsBack_decode_op tail (not_exists.mp hxy)

/-- Settles O1: the round trip of the encoder, over any bytes behind. -/
theorem decodeOfEncode : Obligations.DecodeOfEncode := decode_encode_append

/-- Settles O2: every table of the decoder reads back, and a run of index prefixes by induction. -/
theorem encodeOfDecode : Obligations.EncodeOfDecode := fun bytes rest i h => readsBack_decode bytes i rest h

end Sys2Proof
end

section
/-! Tables: which opcodes stand for what (rule R114). -/

namespace Sys2Proof

open Machine

/-- The CB table has no hole (rules R112, R114). -/
theorem decodeCb_defined (op : Byte) (tail : List Byte) :
    ∃ i, decodeCb op tail = .ok (i, tail) ∧ i.complete = true ∧ ∀ x, i ≠ .undefinedEd x := by
  unfold decodeCb rotR rotMemHl
  dsimp only
  repeat' split
  all_goals exact ⟨_, rfl, rfl, nofun⟩

/-- Nor has it one behind DD or FD and a displacement (rules R106, R114). -/
theorem decodeXyCb_defined (xy : Xy) (d op : Byte) (tail : List Byte) :
    ∃ i, decodeXyCb xy (d :: op :: tail) = .ok (i, tail) ∧ i.complete = true ∧ ∀ x, innermost i ≠ .undefinedEd x := by
  unfold decodeXyCb rotXyd rotXydR
  dsimp only
  repeat' split
  all_goals exact ⟨_, rfl, rfl, nofun⟩

/-- What was read behind an opcode other than ED is no ED instruction. -/
theorem Decoded.ReadsBack.ne_undefinedEd {x : Decoded} {op : Byte} {opcode tail rest : List Byte} {i : Instr}
    (h : x.ReadsBack (op :: opcode) tail) (e : x = .ok (i, rest)) (hop : op ≠ 0xED#8) (op2 : Byte) :
    i ≠ .undefinedEd op2 := by
  rintro rfl
  exact hop (List.cons.inj (h _ rest e).1).1

/-- Settles O4: the ED table by its entries, the main table by what it reads back, the CB tables case by case. -/
theorem undefinedEncodings : Obligations.UndefinedEncodings := by
  refine ⟨by decide, rfl, fun op n m hop => ?_, fun op d xy hxy => ⟨decodeCb_defined op [], ?_⟩⟩
  · obtain ⟨i, rest, hi, hcomplete⟩ := whole_decodeMain n m [] hop
    simp only [List.mem_cons, List.not_mem_nil, or_false, not_or] at hop
    obtain ⟨hcb, hdd, hed, hfd⟩ := hop
    refine ⟨i, rest, ?_, hcomplete, (readsBack_decodeMain op [n, m]).ne_undefinedEd hi hed⟩
    simpa only [decode, hcb, hdd, hed, hfd, if_false] using hi
  · obtain ⟨xy, rfl⟩ := exists_eq_byte.mpr hxy
    rw [decode_xy]
    exact decodeXyCb_defined xy d op []

end Sys2Proof
end

section
/-! Latch: the step of the instruction at PC, and the one instruction that sets the fault latch (rules R102, R103, R114,
R560 .. R562). -/

namespace Sys2Proof.Machine

/-! ## A step, line by line (rules R31, R36, R102, R540 .. R542) -/

theorem State.beginStep_eq (s : State) :
    s.beginStep =
      { s with
        cursor := { tBase := s.clock, t := 0, start := s.cpu.pc, lastXy := none }
        cpu := { s.cpu with iff1 := s.cpu.iff1 || s.cpu.eiDelay, iff2 := s.cpu.iff2 || s.cpu.eiDelay,
                            eiDelay := false } } := by
  unfold State.beginStep
  cases h : s.cpu.eiDelay with
  | true => simp only [Bool.or_true, if_true]
  | false =>
    simp only [Bool.or_false, Bool.false_eq_true, if_false]
    rw [← h]

/-- Settles O5: the instruction the bytes at PC decode to is the one fetched; the rest of the iteration by definition. -/
theorem stepRunsDecoded : Obligations.StepRunsDecoded := by
  refine ⟨fun s i rest hr hs hh hdecode hi => ⟨?_, s.beginStep_eq⟩, fun s => ?_⟩
  · exact step_eq_runAs hr hs hh (fetchInstr_of_decode hdecode hi)
  · dsimp only
    unfold State.finishIteration
    rw [State.updateDevices_eq, State.processEvents_eq (s := { s with clock := _, frameAcc := _ })]
    rfl

/-! ## What leaves the latch alone (rule R562) -/

theorem Plain.fault {s t : State} (h : Plain s t) : t.fault = s.fault := by rw [h.frame]

theorem State.ioWrite_fault (s : State) (port : Word) (v : Byte) : (s.ioWrite port v).fault = s.fault := by
  rw [State.ioWrite_eq]

theorem State.returnFromInterrupt_fault (s : State) : s.returnFromInterrupt.fault = s.fault := by
  rw [State.returnFromInterrupt_eq]

theorem State.blockOut_repeatIf_fault (s : State) (delta : Word) (again : Bool) :
    ((s.blockOut delta).repeatIf again).fault = s.fault := by
  rw [((Plain.refl _).repeatIf again).fault, State.blockOut_eq]

/-- Every instruction but an undefined ED sub-opcode, behind index prefixes or not, leaves the latch as it is. -/
theorem exec_fault (i : Instr) (s : State) :
    (∃ op, innermost i = .undefinedEd op) ∨ ∃ t, exec i s = .next t ∧ t.fault = s.fault := by
  induction i generalizing s with
  | xpMain xy i ih => exact exec_xpMain xy i s ▸ ih (s.fetchedXy xy)
  | xpEd xy i ih => exact exec_xpEd xy i s ▸ ih (s.fetchedXy xy)
  | xpXp xy i ih => exact exec_xpXp xy i s ▸ ih (s.fetchedXy xy)
  | undefinedEd op => exact .inl ⟨op, rfl⟩
  | outNA | outCR | outC0 => exact .inr ⟨_, rfl, State.ioWrite_fault ..⟩
  | outi | outd => exact .inr ⟨_, rfl, State.blockOut_repeatIf_fault _ _ false⟩
  | otir | otdr => exact .inr ⟨_, rfl, State.blockOut_repeatIf_fault ..⟩
  | reti | retn => exact .inr ⟨_, rfl, State.returnFromInterrupt_fault _⟩
  | djnz | jpCcNn | callCcNn | retCc =>
    exact .inr ⟨_, rfl, by split <;> simp [State.jumpRel, State.callTo, State.popPc]⟩
  | popRp2 | popXy | exSpHl | exSpXy | inRC => exact .inr ⟨_, rfl, by simp⟩
  | ldIA | im0 | im1 | im2 | halt | ei | di | ldRefreshA | exAfAf | exx | exDeHl => exact .inr ⟨_, rfl, rfl⟩
  | _ => exact .inr ⟨_, rfl, Plain.fault (by simp)⟩

theorem State.finishIteration_fault (s : State) : s.finishIteration.fault = s.fault := by
  unfold State.finishIteration
  rw [State.frameBoundary_eq, State.updateDevices_eq]
  rfl

theorem act_fault {s t : State} {e : HostEvent} (he : e ≠ .iterate) (h : s.act e = .next t) : t.fault = s.fault := by
  cases e with
  | iterate => exact absurd rfl he
  | audioSample =>
    cases h
    unfold State.audioSample
    split <;> rfl
  | setKey | tapeStart | tapePause | tapeResume | tapeRewind => cases h; rfl
  | tapeSeek =>
    cases h
    unfold State.tapeSeek
    split <;> rfl
  | recordStart | recordStartAppend =>
    cases h
    unfold State.recordStarted
    split <;> rfl
  | recordStop => cases h; rw [State.recordStop_frame]
  | shutdown =>
    cases h
    unfold State.shutdownNow
    dsimp only
    split
    · rw [State.recordStop_frame]
    · rfl

/-! ## An undefined sub-opcode behind a run of index prefixes (rules R103, R114) -/

/-- What the run's bytes do: PC, R and the cursor count them, and the last of them is the last one met. -/
theorem foldl_fetchedXy (run : List Xy) (s : State) :
    run.foldl State.fetchedXy s =
      { s with
        cpu := { s.cpu with pc := s.cpu.pc + BitVec.ofNat 16 run.length, r := incRTimes run.length s.cpu.r }
        cursor := { s.cursor with t := s.cursor.t + 4 * run.length, lastXy := run.getLast?.or s.cursor.lastXy } } := by
  induction run generalizing s with
  | nil => simp [incRTimes]
  | cons xy run ih =>
    have hpc : s.cpu.pc + 1#16 + BitVec.ofNat 16 run.length = s.cpu.pc + BitVec.ofNat 16 (run.length + 1) := by
      rw [BitVec.add_assoc, Nat.add_comm run.length 1, BitVec.ofNat_add]
    have hlast : run.getLast?.or (some xy) = (xy :: run).getLast?.or s.cursor.lastXy := by
      rw [List.getLast?_cons]
      cases run.getLast? <;> rfl
    rw [List.foldl_cons, ih (s.fetchedXy xy)]
    simp only [State.fetchedXy, hpc, hlast, List.length_cons, incRTimes, Nat.mul_succ, Nat.add_assoc, Nat.add_comm 4]

/-- Such an instruction's bytes are the run's, ED and the sub-opcode, and it fetches the run first. -/
theorem undefined_behind_run {i : Instr} {op : Byte} (hwf : i.wf = true) (h : innermost i = .undefinedEd op) :
    ∃ run : List Xy, undefinedEdOp op = true ∧ encode i = run.map Xy.byte ++ [0xED#8, op] ∧
      ∀ s, exec i s = .next (((run.foldl State.fetchedXy s).fetched 2 2 8).raiseUnknownOpcode op) := by
  induction i with
  | undefinedEd o =>
    cases h
    exact ⟨[], hwf, rfl, fun _ => rfl⟩
  | xpMain xy i ih =>
    obtain ⟨run, hop, he, hexec⟩ := ih (wf_of_plainUnderXy hwf) h
    exact ⟨xy :: run, hop, congrArg (xy.byte :: ·) he, fun s => (exec_xpMain xy i s).trans (hexec _)⟩
  | xpEd xy i ih =>
    obtain ⟨run, hop, he, hexec⟩ := ih (Bool.and_eq_true_iff.mp hwf).2 h
    exact ⟨xy :: run, hop, congrArg (xy.byte :: ·) he, fun s => (exec_xpEd xy i s).trans (hexec _)⟩
  | xpXp xy i ih =>
    obtain ⟨run, hop, he, hexec⟩ := ih (Bool.and_eq_true_iff.mp hwf).2 h
    exact ⟨xy :: run, hop, congrArg (xy.byte :: ·) he, fun s => (exec_xpXp xy i s).trans (hexec _)⟩
  | _ => cases h

/-- The state it leaves where the latch was clear (rules R560, R561). -/
theorem raiseUnknownOpcode_behind_run (run : List Xy) (op : Byte) {s : State} (h : s.fault = none) :
    ((run.foldl State.fetchedXy s).fetched 2 2 8).raiseUnknownOpcode op =
      { s with
        cpu := { s.cpu with pc := s.cpu.pc + BitVec.ofNat 16 (run.length + 2), r := incRTimes (run.length + 2) s.cpu.r }
        cursor := { s.cursor with t := s.cursor.t + 4 * run.length + 8, lastXy := run.getLast?.or s.cursor.lastXy }
        fault := some { addr := s.cursor.start, xyByte := run.getLast?.or s.cursor.lastXy, bytes := [0xED#8, op] } } := by
  rw [foldl_fetchedXy]
  simp only [State.raiseUnknownOpcode, State.fetched, h, incRTimes_add, BitVec.ofNat_add, BitVec.add_assoc]

/-! ## The step that sets the latch (rules R560, R561) -/

theorem decode_of_fetchInstr {s : State} {i : Instr} (h : s.fetchInstr = some i) :
    ∃ rest, decode (fetchBytes s.mem fetchLimit s.cpu.pc) = .ok (i, rest) := by
  unfold State.fetchInstr at h
  split at h
  next j rest hj =>
    split at h <;> cases h
    exact ⟨rest, hj⟩
  next => cases h

/-- The bytes of the instruction fetched stand in memory from PC on. -/
theorem read8_of_fetchInstr {s : State} {i : Instr} (h : s.fetchInstr = some i) {k : Nat} {b : Byte}
    (hk : (encode i)[k]? = some b) : s.read8 (s.cpu.pc + BitVec.ofNat 16 k) = b := by
  obtain ⟨rest, hdecode⟩ := decode_of_fetchInstr h
  have hbytes : fetchBytes s.mem fetchLimit s.cpu.pc = encode i ++ rest := (readsBack_decode _ i rest hdecode).1
  have hlt : k < (encode i).length := (List.getElem?_eq_some_iff.mp hk).1
  have hlimit : k < fetchLimit := by
    rw [← length_fetchBytes s.mem fetchLimit s.cpu.pc, hbytes, List.length_append]
    omega
  have hat := getElem?_fetchBytes s.mem s.cpu.pc hlimit
  rw [hbytes, List.getElem?_append_left hlt, hk] at hat
  exact (Option.some.inj hat).symm

/-- A CPU step sets the latch by the instruction it fetches, and that is an undefined ED sub-opcode. -/
theorem cpuStep_sets_latch {s t : State} {r : FaultRecord} (h : s.cpuStep = .next t) (hs : s.fault = none)
    (ht : t.fault = some r) :
    ∃ i op, s.fetchInstr = some i ∧ exec i s.beginStep = .next t ∧ innermost i = .undefinedEd op := by
  unfold State.cpuStep at h
  dsimp only at h
  split at h
  · cases h
    cases hs.symm.trans ht
  · split at h
    next i hi =>
      rw [beginStep_fetchInstr] at hi
      obtain ⟨op, hop⟩ | ⟨u, hu, hfault⟩ := exec_fault i s.beginStep
      · exact ⟨i, op, hi, h, hop⟩
      · cases hu.symm.trans h
        cases (hs.symm.trans hfault.symm).trans ht
    next => cases h

/-- A step takes the next action off the schedule: an iteration, also where none is queued, or another. -/
theorem step_takes_action {s t : State} (h : step s = .next t) :
    ∃ e, ({ s with schedule := s.schedule.tail } : State).act e = .next t := by
  unfold step at h
  split at h
  · cases h
  · split at h
    · cases h
    · split at h
      next hnil =>
        refine ⟨.iterate, Eq.trans ?_ h⟩
        rw [hnil, List.tail_nil, ← hnil]
        rfl
      next e rest hcons => exact ⟨e, by rw [hcons]; exact h⟩

/-- A step that sets the latch is an iteration whose CPU step sets it, nothing coming after it. -/
theorem step_sets_latch {s t : State} {r : FaultRecord} (h : step s = .next t) (hs : s.fault = none)
    (ht : t.fault = some r) : ({ s with schedule := s.schedule.tail } : State).cpuStep = .next t := by
  obtain ⟨e, he⟩ := step_takes_action h
  by_cases hiter : e = .iterate
  · subst hiter
    obtain ⟨u, hu, ⟨-, rfl⟩ | ⟨hnone, rfl⟩⟩ := iterate_cases he
    · exact hu
    · rw [State.finishIteration_fault, hnone] at ht
      cases ht
  · cases (hs.symm.trans (act_fault hiter he).symm).trans ht

/-- Settles O12: the instruction fetched is an undefined sub-opcode behind a run, and its bytes are those in memory. -/
theorem onlyUndefinedEdFaults : Obligations.OnlyUndefinedEdFaults := by
  intro s t r h hs ht
  obtain ⟨i, op, hi, hexec, hop⟩ := cpuStep_sets_latch (step_sets_latch h hs ht) hs ht
  obtain ⟨rest, hdecode⟩ := decode_of_fetchInstr hi
  obtain ⟨run, hundef, he, hrun⟩ := undefined_behind_run (readsBack_decode _ i rest hdecode).2 hop
  have hbyte : ∀ {k : Nat} {b : Byte}, (run.map Xy.byte ++ [0xED#8, op])[k]? = some b →
      s.read8 (s.cpu.pc + BitVec.ofNat 16 k) = b := fun hk => read8_of_fetchInstr hi (he ▸ hk)
  refine ⟨op, run, hundef, fun k hk => ?_, hbyte (by simp), hbyte (by simp), ?_⟩
  · have hprefix : (run.map Xy.byte ++ [0xED#8, op])[k]? = some run[k].byte := by
      rw [List.getElem?_append_left (by simpa using hk), List.getElem?_map, List.getElem?_eq_getElem hk, Option.map_some]
    rw [hbyte hprefix]
    cases run[k] <;> rfl
  · have hclear : ({ s with schedule := s.schedule.tail } : State).beginStep.fault = none := hs
    rw [hrun, raiseUnknownOpcode_behind_run run op hclear] at hexec
    cases hexec
    cases ht
    rw [State.beginStep_eq, Option.or_none]
    exact ⟨rfl, rfl⟩

end Sys2Proof.Machine
end

section
/-! Control: the output instructions, the CPU control instructions, and DD or FD in front of an instruction (rules
R103, R107, R353 .. R363, R401, R406, R407). -/

namespace Sys2Proof.Machine

/-- An instruction that is a fetch, a port write and 4 T-states more. -/
theorem fetched_ioWrite_tick (s : State) (port : Word) (v : Byte) (n k tt : Nat) :
    ((s.fetched n k tt).ioWrite port v).tick 4 =
      { s.fetched n k (tt + 4) with ula := ((s.fetched n k tt).ioWrite port v).ula } := by
  rw [State.ioWrite_eq]
  rfl

/-- All that such an instruction does. -/
theorem portOutput_of_exec {i : Instr} {s : State} {port : Word} {v : Byte} {n k tt : Nat}
    (h : exec i s = .next (((s.fetched n k tt).ioWrite port v).tick 4)) :
    ∃ t, exec i s = .next t ∧ Took s t n k (tt + 4) ∧ OnlyPcR s.cpu t.cpu ∧ PortWrote s t port v tt ∧
      t = { s with cpu := t.cpu, cursor := t.cursor, ula := t.ula } := by
  rw [fetched_ioWrite_tick] at h
  exact ⟨_, h, took_fetched s n k (tt + 4), rfl, portWrote_ioWrite s (s.fetched n k tt) port v tt rfl rfl rfl, rfl⟩

/-- Settles O50: each of the three is its fetch, the port write and 4 T-states more. -/
theorem portOutput : Obligations.PortOutput := by
  rintro s i port v bytes fetches at_ total (⟨n, rfl, rfl, rfl, rfl, rfl, rfl, rfl⟩ |
    ⟨r, rfl, rfl, rfl, rfl, rfl, rfl, rfl⟩ | ⟨rfl, rfl, rfl, rfl, rfl, rfl, rfl⟩)
  · exact portOutput_of_exec (n := 2) (k := 1) (tt := 7) rfl
  · exact portOutput_of_exec (n := 2) (k := 2) (tt := 8) rfl
  · exact portOutput_of_exec (n := 2) (k := 2) (tt := 8) rfl

/-- Settles O52: a fetch and a write of CPU registers each; behind DD or FD, by the law of that byte. -/
theorem cpuControlAndPrefixes : Obligations.CpuControlAndPrefixes := by
  intro s
  have registers : ∀ {i : Instr} {c : Cpu} {n k tt : Nat},
      exec i s = .next ((s.fetched n k tt).setCpu { c with pc := (s.fetched n k tt).cpu.pc, r := (s.fetched n k tt).cpu.r }) →
      Computes i s c n k tt := fun h => .of_setCpu h (atFetch_fetched ..) (took_fetched ..)
  refine ⟨registers rfl, ?_, registers rfl, registers rfl, registers rfl, registers rfl, registers rfl, registers rfl,
    fun xy => ⟨rfl, fun i outer h => ?_⟩⟩
  · have hpc : s.cpu.pc + 1#16 - 1#16 = s.cpu.pc := BitVec.add_sub_cancel ..
    exact ⟨_, rfl, ⟨hpc, rfl, rfl⟩, rfl, fun _ => rfl, rfl⟩
  · obtain ⟨t, ht, -⟩ := exec_effect i (s.fetchedXy xy)
    refine ⟨_, t, rfl, ht, ?_⟩
    simp only [List.mem_cons, List.not_mem_nil, or_false] at h
    obtain rfl | rfl | rfl := h
    · exact (exec_xpMain xy i s).trans ht
    · exact (exec_xpEd xy i s).trans ht
    · exact (exec_xpXp xy i s).trans ht

end Sys2Proof.Machine
end

section
/-! Loads: the written-out words of the spec, the 8-bit loads of a register, and the loads between A and the registers I and
R (rules R90 .. R116, R130 .. R149). -/

namespace Sys2Proof.Machine

/-! ## The words of the spec (rules R90 .. R116) -/

/-- Settles O3: the decoder is a function that computes, and it is run on each of the nineteen words. -/
theorem specWordsDecode : Obligations.SpecWordsDecode :=
  ⟨rfl, rfl, rfl, rfl, rfl, rfl, rfl, rfl, rfl, rfl, rfl, rfl, rfl, rfl, rfl, rfl, rfl, rfl, rfl⟩

/-! ## A register written after the fetch (rules R92, R104) -/

theorem AtFetch.setReg8_eq {s u : State} (hu : AtFetch s u) (r : Reg8) (v : Byte) :
    u.setReg8 r v = u.setCpu { s.cpu.setReg8 r v with pc := u.cpu.pc, r := u.cpu.r } := by
  rw [hu]
  cases r <;> rfl

theorem AtFetch.setXy_eq {s u : State} (hu : AtFetch s u) (xy : Xy) (v : Word) :
    u.setXy xy v = u.setCpu { (s.setXy xy v).cpu with pc := u.cpu.pc, r := u.cpu.r } := by
  rw [hu]
  cases xy <;> rfl

theorem AtFetch.xy {s u : State} (hu : AtFetch s u) (xy : Xy) : u.cpu.xy xy = s.cpu.xy xy := by
  rw [hu]
  cases xy <;> rfl

/-- An instruction that writes an 8-bit register after its fetch. -/
theorem Computes.of_setReg8 {i : Instr} {s u : State} {r : Reg8} {v : Byte} {n k tt : Nat}
    (h : exec i s = .next (u.setReg8 r v)) (hu : AtFetch s u) (ht : Took s u n k tt) :
    Computes i s (s.cpu.setReg8 r v) n k tt :=
  .of_setCpu (h.trans (congrArg _ (hu.setReg8_eq r v))) hu ht

/-- An instruction that writes an index register after its fetch. -/
theorem Computes.of_setXy {i : Instr} {s u : State} {xy : Xy} {v : Word} {n k tt : Nat}
    (h : exec i s = .next (u.setXy xy v)) (hu : AtFetch s u) (ht : Took s u n k tt) :
    Computes i s (s.setXy xy v).cpu n k tt :=
  .of_setCpu (h.trans (congrArg _ (hu.setXy_eq xy v))) hu ht

/-- An instruction that writes the high half of an index register after its fetch. -/
theorem Computes.of_setHalf_hi {i : Instr} {s u : State} {xy : Xy} {v : Byte} {n k tt : Nat}
    (h : exec i s = .next (u.setHalf xy .hi v)) (hu : AtFetch s u) (ht : Took s u n k tt) :
    Computes i s (s.setXy xy (mkWord v (loByte (s.cpu.xy xy)))).cpu n k tt := by
  rw [← hu.xy]
  exact .of_setXy h hu ht

/-- An instruction that writes the low half of an index register after its fetch. -/
theorem Computes.of_setHalf_lo {i : Instr} {s u : State} {xy : Xy} {v : Byte} {n k tt : Nat}
    (h : exec i s = .next (u.setHalf xy .lo v)) (hu : AtFetch s u) (ht : Took s u n k tt) :
    Computes i s (s.setXy xy (mkWord (hiByte (s.cpu.xy xy)) v)).cpu n k tt := by
  rw [← hu.xy]
  exact .of_setXy h hu ht

/-- `LD r,r'` behind DD or FD: a write of the register after the fetch, H and L being the halves of the index register. -/
theorem exec_ldRRXy (xy : Xy) (r q : Reg8) (s : State) :
    exec (.ldRRXy xy r q) s = .next ((s.fetchedIdx xy 2 2 8).setReg8Xy xy r (s.cpu.reg8Xy xy q)) := by
  cases xy <;> cases q <;> rfl

/-- Settles O34: each of these instructions is its fetch and then one write of a register or of an index half. -/
theorem loadRegister : Obligations.LoadRegister := by
  intro s
  have plain : ∀ {i : Instr} {r : Reg8} {v : Byte} {n k tt : Nat},
      exec i s = .next ((s.fetched n k tt).setReg8 r v) → Computes i s (s.cpu.setReg8 r v) n k tt :=
    fun h => .of_setReg8 h (atFetch_fetched ..) (took_fetched ..)
  have indexed : ∀ {i : Instr} {xy : Xy} {r : Reg8} {v : Byte} {n k tt : Nat},
      exec i s = .next ((s.fetchedIdx xy n k tt).setReg8 r v) → Computes i s (s.cpu.setReg8 r v) n k tt :=
    fun h => .of_setReg8 h (atFetch_fetchedIdx ..) (took_fetchedIdx ..)
  refine ⟨fun r q => plain ?_, fun r n => plain rfl, fun r => plain rfl, plain (r := .a) rfl, plain (r := .a) rfl,
    fun nn => plain (r := .a) rfl, fun xy r d => indexed (xy := xy) ?_, fun xy r q => ?_, fun xy n => ⟨?_, ?_⟩⟩
  · cases q <;> rfl
  · rw [← ea_eq_indexedAddress]
    cases xy <;> rfl
  · intro v
    have hv : v = s.cpu.reg8Xy xy q := by cases q <;> rfl
    have h := exec_ldRRXy xy r q s
    rw [← hv] at h
    cases r
    case h => exact .of_setHalf_hi h (atFetch_fetchedIdx ..) (took_fetchedIdx ..)
    case l => exact .of_setHalf_lo h (atFetch_fetchedIdx ..) (took_fetchedIdx ..)
    all_goals exact indexed h
  · exact .of_setHalf_hi rfl (atFetch_fetchedIdx ..) (took_fetchedIdx ..)
  · exact .of_setHalf_lo rfl (atFetch_fetchedIdx ..) (took_fetchedIdx ..)

/-! ## The flags of a result (rules R26, R190) -/

theorem bit_or (v w : Byte) (i : Nat) : bit (v ||| w) i = (bit v i || bit w i) := BitVec.getLsbD_or

theorem bit_and (v w : Byte) (i : Nat) : bit (v &&& w) i = (bit v i && bit w i) := BitVec.getLsbD_and

theorem bit_maskIf (b : Bool) (mask : Byte) (i : Nat) : bit (maskIf b mask) i = (b && bit mask i) := by
  cases b
  · exact BitVec.getLsbD_zero
  · rfl

/-- `sz53` bit by bit: bits 7, 5 and 3 are the byte's, and bit 6 says that it is zero (rule R190). -/
theorem bit_sz53 (v : Byte) (i : Nat) : bit (sz53 v) i = (bit v i && bit 0xA8#8 i || v == 0#8 && bit maskZ i) := by
  rw [sz53, bit_or, bit_and, bit_maskIf]

theorem bit_ldAirFlags (a f : Byte) (iff2 : Bool) (i : Nat) :
    bit (ldAirFlags a f iff2) i = (bit f i && bit maskC i || bit (sz53 a) i || iff2 && bit maskP i) := by
  rw [ldAirFlags, bit_or, bit_or, bit_and, bit_maskIf]

/-- The flags of `LD A,I` and `LD A,R`, each from its bit (rules R141, R142). -/
theorem ldAirFlags_flags (a f : Byte) (iff2 : Bool) :
    ResultFlags (ldAirFlags a f iff2) a ∧ flagP (ldAirFlags a f iff2) = iff2 ∧ flagH (ldAirFlags a f iff2) = false ∧
      flagN (ldAirFlags a f iff2) = false ∧ flagC (ldAirFlags a f iff2) = flagC f := by
  simp only [ResultFlags, flagS, flagZ, flagY, flagX, flagP, flagH, flagN, flagC, bit_ldAirFlags, bit_sz53]
  simp [bit, maskC, maskZ, maskP, BitVec.toNat_eq]

/-- Settles O36: the loads of A are a fetch, a write of A and the flags of `ldAirFlags`; the others write I or all of R. -/
theorem interruptRegisterLoads : Obligations.InterruptRegisterLoads := by
  refine ⟨fun s refresh => ?_, fun s => ?_, fun s => ?_⟩
  · cases refresh
    · exact ⟨_, rfl, took_fetched s 2 2 9, rfl, fun _ => rfl, rfl, rfl, ldAirFlags_flags ..⟩
    · exact ⟨_, rfl, took_fetched s 2 2 9, rfl, fun _ => rfl, rfl, rfl, ldAirFlags_flags ..⟩
  · exact .of_setCpu rfl (atFetch_fetched s 2 2 9) (took_fetched ..)
  · exact ⟨_, rfl, rfl, fun _ => rfl, rfl, rfl⟩

end Sys2Proof.Machine
end

section
/-! Words: the 16-bit loads and stores, and the exchanges (rules R160 .. R165, R168 .. R171, R174 .. R178). -/

namespace Sys2Proof.Machine

/-! ## A pair written or read after the fetch (rules R21, R93) -/

theorem AtFetch.setRp_eq {s u : State} (hu : AtFetch s u) (p : Rp) (v : Word) :
    u.setRp p v = u.setCpu { (s.setRp p v).cpu with pc := u.cpu.pc, r := u.cpu.r } := by
  rw [hu]
  cases p <;> rfl

theorem AtFetch.rp {s u : State} (hu : AtFetch s u) (p : Rp) : u.cpu.rp p = s.cpu.rp p := by
  rw [hu]
  cases p <;> rfl

/-- An instruction that writes a pair after its fetch. -/
theorem Computes.of_setRp {i : Instr} {s u : State} {p : Rp} {v : Word} {n k tt : Nat}
    (h : exec i s = .next (u.setRp p v)) (hu : AtFetch s u) (ht : Took s u n k tt) :
    Computes i s (s.setRp p v).cpu n k tt :=
  .of_setCpu (h.trans (congrArg _ (hu.setRp_eq p v))) hu ht

/-- HL takes a word byte by byte: H its high one, L its low one. -/
theorem setRp_hl_mkWord (s : State) (hi lo : Byte) :
    (s.setRp .hl (mkWord hi lo)).cpu = { s.cpu with h := hi, l := lo } := by
  simp [State.setRp, State.setHl]

/-- Settles O37: each load is its fetch and one write of a pair, of SP or of an index register; each store is its fetch and
one word write. -/
theorem loadAndStoreWord : Obligations.LoadAndStoreWord := by
  refine ⟨fun s nn => ⟨fun p => ⟨?_, ?_⟩, ?_, fun xy => ⟨?_, ?_⟩⟩, fun s => ⟨?_, fun xy => ?_⟩,
    fun s nn hm => ⟨?_, fun p => ?_, fun xy => ?_⟩⟩
  · exact .of_setRp rfl (atFetch_fetched ..) (took_fetched ..)
  · exact .of_setRp rfl (atFetch_fetched ..) (took_fetched ..)
  · rw [← setRp_hl_mkWord]
    exact .of_setRp rfl (atFetch_fetched ..) (took_fetched ..)
  · exact .of_setXy rfl (atFetch_fetchedIdx ..) (took_fetchedIdx ..)
  · exact .of_setXy rfl (atFetch_fetchedIdx ..) (took_fetchedIdx ..)
  · exact .of_setCpu rfl (atFetch_fetched s 1 1 6) (took_fetched ..)
  · rw [← (atFetch_fetchedIdx s xy 2 2 10).xy]
    exact .of_setCpu rfl (atFetch_fetchedIdx s xy 2 2 10) (took_fetchedIdx ..)
  · exact .of_write16 hm rfl (atFetch_fetched s 3 1 16) rfl (took_fetched ..)
  · rw [← (atFetch_fetched s 4 2 20).rp]
    exact .of_write16 hm rfl (atFetch_fetched s 4 2 20) rfl (took_fetched ..)
  · rw [← (atFetch_fetchedIdx s xy 4 2 20).xy]
    exact .of_write16 hm rfl (atFetch_fetchedIdx s xy 4 2 20) rfl (took_fetchedIdx ..)

/-! ## The exchanges -/

/-- An instruction that stores a word after its fetch and then writes registers. -/
theorem StoresWord.of_write16_setCpu {i : Instr} {s u : State} {c : Cpu} {a v : Word} {n k tt : Nat}
    (hm : s.mem.wf = true)
    (h : exec i s = .next ((u.write16 a v).setCpu { c with pc := u.cpu.pc, r := u.cpu.r })) (hu : AtFetch s u)
    (ht : Took s u n k tt) : StoresWord i s c a v n k tt := by
  refine ⟨_, h, ?_, rfl, ?_, ?_⟩
  · simpa [Took] using ht
  · intro x
    rw [State.setCpu_read8, storedWord_write16 (by rw [hu.mem]; exact hm) a v x]
    simp only [hu.read8]
  · simp only [SameOutside]
    rw [State.write16_eq, hu]
    rfl

/-- EX (SP),HL: HL takes the two bytes at SP as they were before HL was stored there. -/
theorem exec_exSpHl (s : State) :
    exec .exSpHl s = .next (((s.fetched 1 1 19).write16 s.cpu.sp s.cpu.hl).setCpu
      { s.cpu with
        h := s.read8 (s.cpu.sp + 1#16)
        l := s.read8 s.cpu.sp
        pc := (s.fetched 1 1 19).cpu.pc
        r := (s.fetched 1 1 19).cpu.r }) := by
  show Host.Outcome.next (((s.fetched 1 1 19).write16 s.cpu.sp s.cpu.hl).setHl (s.read16 s.cpu.sp)) = _
  simp [State.setHl, State.setCpu, State.read16]

/-- EX (SP),XY: the index register takes the word at SP as it was before the register was stored there. -/
theorem exec_exSpXy (xy : Xy) (s : State) :
    exec (.exSpXy xy) s = .next (((s.fetchedIdx xy 2 2 23).write16 s.cpu.sp (s.cpu.xy xy)).setCpu
      { (s.setXy xy (s.read16 s.cpu.sp)).cpu with
        pc := (s.fetchedIdx xy 2 2 23).cpu.pc
        r := (s.fetchedIdx xy 2 2 23).cpu.r }) := by
  rw [← (atFetch_fetchedIdx s xy 2 2 23).xy]
  show Host.Outcome.next (((s.fetchedIdx xy 2 2 23).write16 s.cpu.sp _).setXy xy (s.read16 s.cpu.sp)) = _
  cases xy <;> simp [State.setXy, State.setCpu]

/-- Settles O39: the first three write registers alone; EX (SP) stores the register and then gives it the word read. -/
theorem exchanges : Obligations.Exchanges := by
  refine ⟨fun s => ?_, fun s hm => ⟨?_, ?_, ?_⟩⟩
  · have registers : ∀ {i : Instr} {c : Cpu}, exec i s = .next ((s.fetched 1 1 4).setCpu
        { c with pc := (s.fetched 1 1 4).cpu.pc, r := (s.fetched 1 1 4).cpu.r }) → Computes i s c 1 1 4 :=
      fun h => .of_setCpu h (atFetch_fetched ..) (took_fetched ..)
    exact ⟨registers rfl, registers rfl, registers rfl⟩
  · exact .of_write16_setCpu hm (exec_exSpHl s) (atFetch_fetched ..) (took_fetched ..)
  · exact .of_write16_setCpu hm (exec_exSpXy .ix s) (atFetch_fetchedIdx ..) (took_fetchedIdx ..)
  · exact .of_write16_setCpu hm (exec_exSpXy .iy s) (atFetch_fetchedIdx ..) (took_fetchedIdx ..)

end Sys2Proof.Machine
end

section
/-! ByteFlags: the flag byte of an 8-bit operation, and what each of the model's operations on bytes means in numbers (rules
R26, R190 .. R193, R211, R216). -/

namespace Sys2Proof.Machine

/-! ## Bytes as numbers (rules R7, R8) -/

theorem bit_xor (v w : Byte) (i : Nat) : bit (v ^^^ w) i = (bit v i ^^ bit w i) := BitVec.getLsbD_xor

theorem bit_eq_decide (v : Byte) (i : Nat) : bit v i = decide (v.toNat / 2 ^ i % 2 = 1) :=
  Nat.testBit_eq_decide_div_mod_eq

theorem bit_seven (v : Byte) : bit v 7 = decide (128 ≤ v.toNat) :=
  (BitVec.msb_eq_getLsbD_last v).symm.trans v.msb_eq_decide

/-- The sign test of the overflow rules (rules R191, R192). -/
theorem and_sign_ne_zero (v : Byte) : ((v &&& 0x80#8) != 0#8) = bit v 7 := by
  revert v
  decide

theorem and_maskC (f : Byte) : f &&& maskC = maskIf (flagC f) maskC := by
  revert f
  decide

theorem and_maskN (f : Byte) : f &&& maskN = maskIf (flagN f) maskN := by
  revert f
  decide

theorem toNat_low_nibble (v : Byte) : (v &&& 0x0F#8).toNat = v.toNat % 16 := by
  revert v
  decide

theorem toInt_byte (v : Byte) : v.toInt = if 128 ≤ v.toNat then (v.toNat : Int) - 256 else v.toNat := by
  rw [BitVec.toInt_eq_msb_cond, v.msb_eq_decide]
  simp

theorem parityEven_eq (v : Byte) : parityEven v = decide (onesIn v % 2 = 0) := by
  revert v
  decide

theorem bitNat_le_one (c : Bool) : bitNat c ≤ 1 := by
  cases c
  · exact Nat.zero_le 1
  · exact Nat.le_refl 1

/-! ## The flag byte of a result (rules R26, R190) -/

/-- S, Z, Y and X of the result `r`, with H, P/V, N and C as given. -/
def resultByte (r : Byte) (h p n c : Bool) : Byte :=
  sz53 r ||| maskIf h maskH ||| maskIf p maskP ||| maskIf n maskN ||| maskIf c maskC

theorem bit_resultByte (r : Byte) (h p n c : Bool) (i : Nat) :
    bit (resultByte r h p n c) i =
      (bit (sz53 r) i || h && bit maskH i || p && bit maskP i || n && bit maskN i || c && bit maskC i) := by
  simp only [resultByte, bit_or, bit_maskIf]

section
variable (r : Byte) (h p n c : Bool)

theorem resultFlags_resultByte : ResultFlags (resultByte r h p n c) r := by
  simp only [ResultFlags, flagS, flagZ, flagY, flagX, bit_resultByte, bit_sz53]
  simp [bit, maskC, maskN, maskP, maskH, maskZ, BitVec.toNat_eq]

@[simp] theorem flagH_resultByte : flagH (resultByte r h p n c) = h := by
  simp only [flagH, bit_resultByte, bit_sz53]
  simp [bit, maskC, maskN, maskP, maskH, maskZ]

@[simp] theorem flagP_resultByte : flagP (resultByte r h p n c) = p := by
  simp only [flagP, bit_resultByte, bit_sz53]
  simp [bit, maskC, maskN, maskP, maskH, maskZ]

@[simp] theorem flagN_resultByte : flagN (resultByte r h p n c) = n := by
  simp only [flagN, bit_resultByte, bit_sz53]
  simp [bit, maskC, maskN, maskP, maskH, maskZ]

@[simp] theorem flagC_resultByte : flagC (resultByte r h p n c) = c := by
  simp only [flagC, bit_resultByte, bit_sz53]
  simp [bit, maskC, maskN, maskP, maskH, maskZ]

end

/-! ## `add8` and `sub8` (rules R191, R192) -/

/-- What an addition leaves in the result and its flags, over the integers. -/
structure AddsTo (a b : Byte) (c : Nat) (r f : Byte) : Prop where
  value : r.toNat = (a.toNat + b.toNat + c) % 256
  carry : flagC f = true ↔ 256 ≤ a.toNat + b.toNat + c
  half : flagH f = true ↔ 16 ≤ a.toNat % 16 + b.toNat % 16 + c
  direction : flagN f = false
  overflow : Overflow8 f (a.toInt + b.toInt + c)
  result : ResultFlags f r

/-- What a subtraction leaves in the result and its flags, over the integers. -/
structure SubtractsTo (a b : Byte) (c : Nat) (r f : Byte) : Prop where
  value : (r.toNat : Int) = ((a.toNat : Int) - b.toNat - c) % 256
  borrow : flagC f = true ↔ a.toNat < b.toNat + c
  half : flagH f = true ↔ a.toNat % 16 < b.toNat % 16 + c
  direction : flagN f = true
  overflow : Overflow8 f (a.toInt - b.toInt - c)
  result : ResultFlags f r

/-- The sum overflows exactly when its sign is neither operand's (rule R191). -/
theorem add_overflow {a b r : Byte} {c : Nat} (hc : c ≤ 1) (hr : r.toNat = (a.toNat + b.toNat + c) % 256) :
    ((a ^^^ r) &&& (b ^^^ r) &&& 0x80#8 != 0#8) = true ↔ a.toInt + b.toInt + c < -128 ∨ 127 < a.toInt + b.toInt + c := by
  rw [and_sign_ne_zero, bit_and, bit_xor, bit_xor, bit_seven, bit_seven, bit_seven, toInt_byte, toInt_byte]
  have ha := a.isLt
  have hb := b.isLt
  by_cases h1 : 128 ≤ a.toNat <;> by_cases h2 : 128 ≤ b.toNat <;> simp [h1, h2] <;> omega

/-- The difference overflows exactly when the operands' signs differ and its own is not the first one's (rule R192). -/
theorem sub_overflow {a b r : Byte} {c : Nat} (hc : c ≤ 1)
    (hr : (r.toNat : Int) = ((a.toNat : Int) - b.toNat - c) % 256) :
    ((a ^^^ b) &&& (a ^^^ r) &&& 0x80#8 != 0#8) = true ↔ a.toInt - b.toInt - c < -128 ∨ 127 < a.toInt - b.toInt - c := by
  rw [and_sign_ne_zero, bit_and, bit_xor, bit_xor, bit_seven, bit_seven, bit_seven, toInt_byte, toInt_byte]
  have ha := a.isLt
  have hb := b.isLt
  by_cases h1 : 128 ≤ a.toNat <;> by_cases h2 : 128 ≤ b.toNat <;> simp [h1, h2] <;> omega

theorem add8_addsTo (a b : Byte) (c : Bool) : AddsTo a b (bitNat c) (add8 a b c).1 (add8 a b c).2 := by
  have hc := bitNat_le_one c
  have hr : (add8 a b c).1.toNat = (a.toNat + b.toNat + bitNat c) % 256 := BitVec.toNat_ofNat ..
  have hf : (add8 a b c).2 = resultByte (add8 a b c).1 (decide (a.toNat % 16 + b.toNat % 16 + bitNat c > 0x0F))
      ((a ^^^ (add8 a b c).1) &&& (b ^^^ (add8 a b c).1) &&& 0x80#8 != 0#8) false
      (decide (a.toNat + b.toNat + bitNat c > 0xFF)) := by
    simp [add8, resultByte, maskIf]
  rw [hf]
  exact {
    value := hr
    carry := by simp; omega
    half := by simp; omega
    direction := flagN_resultByte ..
    overflow := by rw [Overflow8, flagP_resultByte, add_overflow hc hr]
    result := resultFlags_resultByte .. }

theorem sub8_subtractsTo (a b : Byte) (c : Bool) : SubtractsTo a b (bitNat c) (sub8 a b c).1 (sub8 a b c).2 := by
  have hc := bitNat_le_one c
  have hr : ((sub8 a b c).1.toNat : Int) = ((a.toNat : Int) - b.toNat - bitNat c) % 256 := by
    rw [sub8, BitVec.toNat_ofInt]
    omega
  have hf : (sub8 a b c).2 = resultByte (sub8 a b c).1
      (decide (((a.toNat % 16 : Nat) : Int) - (b.toNat % 16 : Nat) - bitNat c < 0))
      ((a ^^^ b) &&& (a ^^^ (sub8 a b c).1) &&& 0x80#8 != 0#8) true
      (decide ((a.toNat : Int) - b.toNat - bitNat c < 0)) := rfl
  rw [hf]
  exact {
    value := hr
    borrow := by simp; omega
    half := by simp; omega
    direction := flagN_resultByte ..
    overflow := by rw [Overflow8, flagP_resultByte, sub_overflow hc hr]
    result := resultFlags_resultByte .. }

/-! ## `cp8` (rule R193) -/

theorem fst_sub8_false (a b : Byte) : (sub8 a b false).1 = a - b := by
  have h := (sub8_subtractsTo a b false).value
  rw [show bitNat false = 0 from rfl] at h
  have hb := b.isLt
  apply BitVec.eq_of_toNat_eq
  rw [BitVec.toNat_sub]
  omega

theorem bit_cp8 (a b : Byte) {i : Nat} (hi : i < 8) :
    bit (cp8 a b) i = if bit maskXY i then bit b i else bit (sub8 a b false).2 i := by
  have hnot : bit (~~~maskXY) i = !bit maskXY i := by simp [bit, hi]
  rw [cp8, bit_or, bit_and, bit_and, hnot]
  cases bit maskXY i <;> simp

/-- CP's flags are those of the subtraction, but for Y and X. -/
theorem cp8_flags (a b : Byte) :
    FlagsXY (cp8 a b) b ∧ flagS (cp8 a b) = flagS (sub8 a b false).2 ∧ flagZ (cp8 a b) = flagZ (sub8 a b false).2 ∧
      flagH (cp8 a b) = flagH (sub8 a b false).2 ∧ flagP (cp8 a b) = flagP (sub8 a b false).2 ∧
      flagN (cp8 a b) = flagN (sub8 a b false).2 ∧ flagC (cp8 a b) = flagC (sub8 a b false).2 := by
  refine ⟨⟨?_, ?_⟩, ?_, ?_, ?_, ?_, ?_, ?_⟩ <;> exact bit_cp8 a b (by decide)

/-! ## `and8`, `xor8` and `or8` (rule R193) -/

theorem sz53p_eq (r : Byte) : sz53p r = resultByte r false (parityEven r) false false := by
  simp [sz53p, resultByte, maskIf]

/-- Each logical operation works bit by bit, and its flags are those of its result with H set by AND alone. -/
theorem alu8_logic {op : AluOp} {f : Bool → Bool → Bool}
    (h : (op, f) ∈ [(AluOp.and, Bool.and), (AluOp.xor, Bool.xor), (AluOp.or, Bool.or)]) (a v g : Byte) :
    (∀ i, bit (alu8 op a v g).1 i = f (bit a i) (bit v i)) ∧
      (alu8 op a v g).2 =
        resultByte (alu8 op a v g).1 (decide (op = .and)) (parityEven (alu8 op a v g).1) false false := by
  simp only [List.mem_cons, List.not_mem_nil, or_false, Prod.mk.injEq] at h
  obtain ⟨rfl, rfl⟩ | ⟨rfl, rfl⟩ | ⟨rfl, rfl⟩ := h
  · refine ⟨bit_and a v, ?_⟩
    simp [alu8, and8, sz53p, resultByte, maskIf, BitVec.or_assoc, BitVec.or_comm maskH]
  · exact ⟨bit_xor a v, sz53p_eq _⟩
  · exact ⟨bit_or a v, sz53p_eq _⟩

theorem parityFlag_resultByte (r : Byte) (h n c : Bool) : ParityFlag (resultByte r h (parityEven r) n c) r := by
  rw [ParityFlag, flagP_resultByte, parityEven_eq, decide_eq_true_eq]

/-! ## `inc8` and `dec8` (rule R216) -/

/-- The operation of an 8-bit INC or DEC. -/
def count8 (decrement : Bool) : Byte → Byte → Byte × Byte := if decrement then dec8 else inc8

/-- What counting `v` up or down leaves in the result and, from the flags `f`, in the flags `g`. -/
structure CountsTo (decrement : Bool) (v f r g : Byte) : Prop where
  value : (r.toNat : Int) = ((v.toNat : Int) + (if decrement then -1 else 1)) % 256
  carry : flagC g = flagC f
  direction : flagN g = decrement
  half : flagH g = true ↔ v.toNat % 16 = if decrement then 0 else 15
  overflow : flagP g = true ↔ v.toNat = if decrement then 0x80 else 0x7F
  result : ResultFlags g r

theorem inc8_eq (v f : Byte) :
    inc8 v f = (v + 1#8,
      resultByte (v + 1#8) (decide (v.toNat % 16 = 15)) (decide (v.toNat = 0x7F)) false (flagC f)) := by
  have half : ((v + 1#8) &&& 0x0F#8 == 0#8) = decide (v.toNat % 16 = 15) := by
    revert v
    decide
  have sign : (v + 1#8 == 0x80#8) = decide (v.toNat = 0x7F) := by
    revert v
    decide
  simp only [inc8, resultByte, and_maskC, half, sign, maskIf, Bool.false_eq_true, if_false, BitVec.or_zero, Prod.mk.injEq,
    true_and]
  ac_rfl

theorem dec8_eq (v f : Byte) :
    dec8 v f = (v - 1#8,
      resultByte (v - 1#8) (decide (v.toNat % 16 = 0)) (decide (v.toNat = 0x80)) true (flagC f)) := by
  have half : ((v - 1#8) &&& 0x0F#8 == 0x0F#8) = decide (v.toNat % 16 = 0) := by
    revert v
    decide
  have sign : (v - 1#8 == 0x7F#8) = decide (v.toNat = 0x80) := by
    revert v
    decide
  simp only [dec8, resultByte, and_maskC, half, sign, maskIf, if_true, Prod.mk.injEq, true_and]
  ac_rfl

theorem count8_countsTo (decrement : Bool) (v f : Byte) :
    CountsTo decrement v f (count8 decrement v f).1 (count8 decrement v f).2 := by
  cases decrement
  case false =>
    rw [show count8 false v f = _ from inc8_eq v f]
    exact {
      value := by rw [BitVec.toNat_add]; simp
      carry := flagC_resultByte ..
      direction := flagN_resultByte ..
      half := by simp
      overflow := by simp
      result := resultFlags_resultByte .. }
  case true =>
    rw [show count8 true v f = _ from dec8_eq v f]
    exact {
      value := by rw [BitVec.toNat_sub]; simp; omega
      carry := flagC_resultByte ..
      direction := flagN_resultByte ..
      half := by simp
      overflow := by simp
      result := resultFlags_resultByte .. }

/-! ## `daa8` (rule R211) -/

/-- The correction of the low digit. -/
def daaLow (a f : Byte) : Nat := if flagH f = true ∨ 9 < a.toNat % 16 then 0x06 else 0

/-- The correction of the high digit. -/
def daaHigh (a f : Byte) : Nat := if flagC f = true ∨ 0x99 < a.toNat then 0x60 else 0

theorem daaLow_eq (a f : Byte) : daaLow a f = 0 ∨ daaLow a f = 6 := by
  unfold daaLow
  split <;> simp

theorem daaHigh_eq (a f : Byte) : daaHigh a f = 0 ∨ daaHigh a f = 0x60 := by
  unfold daaHigh
  split <;> simp

/-- What DAA leaves of A and F in the result and its flags. -/
structure AdjustsTo (a f r g : Byte) : Prop where
  value : (r.toNat : Int) =
    (if flagN f then (a.toNat : Int) - daaLow a f - daaHigh a f else (a.toNat : Int) + daaLow a f + daaHigh a f) % 256
  carry : flagC g = true ↔ daaHigh a f ≠ 0
  direction : flagN g = flagN f
  half : flagH g = true ↔ if flagN f then flagH f = true ∧ a.toNat % 16 < 6 else 9 < a.toNat % 16
  parity : ParityFlag g r
  result : ResultFlags g r

theorem snd_daa8 (a f : Byte) :
    (daa8 a f).2 = resultByte (daa8 a f).1 (bit (a ^^^ (daa8 a f).1) 4) (parityEven (daa8 a f).1) (flagN f)
      (flagC f || decide (a.toNat > 0x99)) := by
  simp only [daa8, and_maskN, sz53p, resultByte]
  ac_rfl

/-- The two corrections as one byte: 0x06 and 0x60 have no bit in common. -/
theorem toNat_correction (low high : Bool) :
    (maskIf low 0x06#8 ||| maskIf high 0x60#8).toNat = (if low then 0x06 else 0) + (if high then 0x60 else 0) := by
  cases low <;> cases high <;> rfl

theorem fst_daa8 (a f : Byte) :
    ((daa8 a f).1.toNat : Int) =
      (if flagN f then (a.toNat : Int) - daaLow a f - daaHigh a f
        else (a.toNat : Int) + daaLow a f + daaHigh a f) % 256 := by
  have hcorr := toNat_correction (flagH f || decide ((a &&& 0x0F#8).toNat > 9)) (flagC f || decide (a.toNat > 0x99))
  simp only [toNat_low_nibble, Bool.or_eq_true, decide_eq_true_eq] at hcorr
  change _ = daaLow a f + daaHigh a f at hcorr
  simp only [daa8, toNat_low_nibble]
  split
  · have low := daaLow_eq a f
    have high := daaHigh_eq a f
    rw [BitVec.toNat_sub, hcorr]
    omega
  · rw [BitVec.toNat_add, hcorr]
    omega

/-- The high correction is even in its high digit, so bit 4 turns exactly when the low one carries into it. -/
theorem bit_four_of_carry {a r : Byte} {low high : Nat} (hlow : low ≤ 6) (hhigh : high % 32 = 0)
    (hr : (r.toNat : Int) = ((a.toNat : Int) + low + high) % 256) :
    bit (a ^^^ r) 4 = true ↔ 16 ≤ a.toNat % 16 + low := by
  rw [bit_xor, bit_eq_decide, bit_eq_decide]
  simp
  omega

theorem bit_four_of_borrow {a r : Byte} {low high : Nat} (hlow : low ≤ 6) (hhigh : high % 32 = 0)
    (hr : (r.toNat : Int) = ((a.toNat : Int) - low - high) % 256) :
    bit (a ^^^ r) 4 = true ↔ a.toNat % 16 < low := by
  rw [bit_xor, bit_eq_decide, bit_eq_decide]
  simp
  omega

theorem daa8_adjustsTo (a f : Byte) : AdjustsTo a f (daa8 a f).1 (daa8 a f).2 := by
  have hr := fst_daa8 a f
  rw [snd_daa8]
  exact {
    value := hr
    carry := by
      rw [flagC_resultByte, Bool.or_eq_true, decide_eq_true_eq, daaHigh, ite_ne_right_iff]
      simp
    direction := flagN_resultByte ..
    half := by
      have low : daaLow a f ≤ 6 := by have := daaLow_eq a f; omega
      have high : daaHigh a f % 32 = 0 := by have := daaHigh_eq a f; omega
      rw [flagH_resultByte]
      split at hr
      next hN =>
        rw [bit_four_of_borrow low high hr, if_pos hN, daaLow]
        cases flagH f
        · simp
          split <;> omega
        · simp
      next hN =>
        rw [bit_four_of_carry low high hr, if_neg hN, daaLow]
        split <;> omega
    parity := parityFlag_resultByte ..
    result := resultFlags_resultByte .. }

/-! ## `cplFlags`, `ccfFlags` and `scfFlags` (rules R212, R214, R215) -/

theorem cplFlags_flags (a f : Byte) :
    flagH (cplFlags a f) = true ∧ flagN (cplFlags a f) = true ∧ flagC (cplFlags a f) = flagC f ∧
      KeptSZP f (cplFlags a f) ∧ FlagsXY (cplFlags a f) a := by
  simp only [KeptSZP, FlagsXY, flagS, flagZ, flagY, flagX, flagP, flagH, flagN, flagC, cplFlags, bit_or, bit_and]
  simp [bit, maskSZP, maskC, maskH, maskN, maskXY]

theorem ccfFlags_flags (a f : Byte) :
    flagH (ccfFlags a f) = flagC f ∧ flagC (ccfFlags a f) = !flagC f ∧ flagN (ccfFlags a f) = false ∧
      KeptSZP f (ccfFlags a f) ∧ FlagsXY (ccfFlags a f) a := by
  simp only [KeptSZP, FlagsXY, flagS, flagZ, flagY, flagX, flagP, flagH, flagN, flagC, ccfFlags, bit_or, bit_and,
    bit_maskIf]
  simp [bit, maskSZP, maskC, maskH, maskXY]

theorem scfFlags_flags (a f : Byte) :
    flagH (scfFlags a f) = false ∧ flagC (scfFlags a f) = true ∧ flagN (scfFlags a f) = false ∧
      KeptSZP f (scfFlags a f) ∧ FlagsXY (scfFlags a f) a := by
  simp only [KeptSZP, FlagsXY, flagS, flagZ, flagY, flagX, flagP, flagH, flagN, flagC, scfFlags, bit_or, bit_and]
  simp [bit, maskSZP, maskC, maskXY]

end Sys2Proof.Machine
end

section
/-! Accumulator: the 8-bit arithmetic and logic instructions (rules R190 .. R216). -/

namespace Sys2Proof.Machine

/-! ## The accumulator operations (rules R194 .. R202) -/

/-- Settles O27: ADD and ADC are `add8` on A and the operand, ADC with the carry. -/
theorem addToAccumulator : Obligations.AddToAccumulator := by
  intro s src withCarry v c
  obtain ⟨t, ht, took, cpu, bytes, outside, haf⟩ := exec_aluInstr s (if withCarry then .adc else .add) src
  have hop : alu8 (if withCarry then .adc else .add) s.cpu.a v s.cpu.f = add8 s.cpu.a v (withCarry && flagC s.cpu.f) := by
    cases withCarry <;> rfl
  have hc : c = bitNat (withCarry && flagC s.cpu.f) := by cases withCarry <;> rfl
  have h := add8_addsTo s.cpu.a v (withCarry && flagC s.cpu.f)
  rw [← hop, ← haf, ← hc] at h
  exact ⟨t, ht, took, cpu, bytes, outside, h.value, h.carry, h.half, h.direction, h.overflow, h.result⟩

/-- CP writes no register: A comes back as it was (rule R202). -/
theorem exec_cp (s : State) (src : AluSource) :
    ∃ t, exec (aluInstr .cp src) s = .next t ∧ Took s t src.cost.1 src.cost.2.1 src.cost.2.2 ∧ OnlyF s.cpu t.cpu ∧
      SameBytes s t ∧ SameOutside s t ∧ t.cpu.f = cp8 s.cpu.a (src.value s) := by
  obtain ⟨t, ht, took, cpu, bytes, outside, haf⟩ := exec_aluInstr s .cp src
  obtain ⟨ha, hf⟩ := Prod.mk.inj haf
  refine ⟨t, ht, took, ?_, bytes, outside, hf⟩
  rw [OnlyAF, ha] at cpu
  exact cpu

/-- Settles O28: SUB and SBC are `sub8` on A and the operand, SBC with the borrow; CP takes its flags, Y and X apart. -/
theorem subtractFromAccumulator : Obligations.SubtractFromAccumulator := by
  constructor
  · intro s src withBorrow v c
    obtain ⟨t, ht, took, cpu, bytes, outside, haf⟩ := exec_aluInstr s (if withBorrow then .sbc else .sub) src
    have hop : alu8 (if withBorrow then .sbc else .sub) s.cpu.a v s.cpu.f =
        sub8 s.cpu.a v (withBorrow && flagC s.cpu.f) := by
      cases withBorrow <;> rfl
    have hc : c = bitNat (withBorrow && flagC s.cpu.f) := by cases withBorrow <;> rfl
    have h := sub8_subtractsTo s.cpu.a v (withBorrow && flagC s.cpu.f)
    rw [← hop, ← haf, ← hc] at h
    exact ⟨t, ht, took, cpu, bytes, outside, h.value, h.borrow, h.half, h.direction, h.overflow, h.result⟩
  · intro s src v
    obtain ⟨t, ht, took, cpu, bytes, outside, hf⟩ := exec_cp s src
    obtain ⟨hxy, hS, hZ, hH, hP, hN, hC⟩ := cp8_flags s.cpu.a v
    have h := sub8_subtractsTo s.cpu.a v false
    obtain ⟨sign, zero, -⟩ := h.result
    rw [fst_sub8_false] at sign zero
    refine ⟨t, ht, took, cpu, bytes, outside, ?_⟩
    rw [Overflow8, hf, hS, hZ, hH, hP, hN, hC]
    refine ⟨h.borrow, ?_, h.half, h.direction, ?_, sign, hxy⟩
    · rw [zero, ← sub_eq_zero (a := s.cpu.a), ← BitVec.toNat_inj]
      rfl
    · simpa [Overflow8, bitNat] using h.overflow

/-- Settles O29: each operation bit by bit, its flags those of the result. -/
theorem logicOnAccumulator : Obligations.LogicOnAccumulator := by
  intro s src op f hop v
  obtain ⟨t, ht, took, cpu, bytes, outside, haf⟩ := exec_aluInstr s op src
  obtain ⟨bits, flags⟩ := alu8_logic hop s.cpu.a v s.cpu.f
  rw [← haf] at bits flags
  refine ⟨t, ht, took, cpu, bytes, outside, fun i _ => bits i, ?_⟩
  rw [show t.cpu.f = _ from flags]
  exact ⟨flagC_resultByte .., flagN_resultByte .., by simp, parityFlag_resultByte .., resultFlags_resultByte ..⟩

/-! ## INC and DEC (rules R203 .. R210, R216) -/

/-- After its fetch, an 8-bit INC or DEC puts what `op` makes of its operand back where it stood, and F. -/
def StepTarget.count (op : Byte → Byte → Byte × Byte) (s : State) : StepTarget → State
  | .reg r => (s.fetched 1 1 4).stepReg op r
  | .memHl => (s.fetched 1 1 11).stepMem op s.cpu.hl
  | .xyd xy d => (s.fetchedIdx xy 3 2 23).stepMem op (s.cpu.ea xy d)
  | .half xy k => (s.fetchedIdx xy 2 2 8).stepHalf op xy k

theorem exec_count (s : State) (m : StepTarget) (decrement : Bool) :
    exec (if decrement then decInstr m else incInstr m) s = .next (m.count (count8 decrement) s) := by
  cases m with
  | xyd xy d => cases decrement <;> cases xy <;> rfl
  | _ => cases decrement <;> rfl

/-- Counting a byte of memory after the fetch: the byte and F change, and no other register does. -/
theorem AtFetch.stepMem_spec {s u : State} {n k tt : Nat} (hu : AtFetch s u) (ht : Took s u n k tt)
    (hm : s.mem.wf = true) (op : Byte → Byte → Byte × Byte) (a : Word) :
    let t := u.stepMem op a
    let w := op (s.read8 a) s.cpu.f
    Took s t n k tt ∧ t.cpu = { s.cpu with f := w.2, pc := t.cpu.pc, r := t.cpu.r } ∧ StoredByte s t a w.1 ∧
      SameOutside s t := by
  have h := State.stepMem_eq u op a
  have hf : u.cpu.f = s.cpu.f := by rw [hu]
  have stored := storedByte_stepMem (s := u) (by rw [hu.mem]; exact hm) op a
  rw [hu.read8, hf] at h stored
  refine ⟨?_, ?_, fun x => by rw [stored x, hu.read8], ?_⟩
  · rw [h]
    exact ht
  · rw [h, hu]
  · rw [SameOutside, h, hu]

theorem StepTarget.count_spec {s : State} (hm : s.mem.wf = true) (op : Byte → Byte → Byte × Byte) (m : StepTarget) :
    let t := m.count op s
    let w := op (m.value s) s.cpu.f
    Took s t m.cost.1 m.cost.2.1 m.cost.2.2 ∧ t.cpu = { m.into s w.1 with f := w.2, pc := t.cpu.pc, r := t.cpu.r } ∧
      StoredAt s t (m.address s) w.1 ∧ SameOutside s t := by
  cases m with
  | reg r => cases r <;> exact ⟨⟨rfl, rfl, rfl⟩, rfl, fun _ => rfl, rfl⟩
  | half xy k => cases xy <;> cases k <;> exact ⟨⟨rfl, rfl, rfl⟩, rfl, fun _ => rfl, rfl⟩
  | memHl => exact (atFetch_fetched ..).stepMem_spec (took_fetched ..) hm op _
  | xyd xy d => exact (atFetch_fetchedIdx ..).stepMem_spec (took_fetchedIdx ..) hm op _

/-- Settles O30: the operand's place takes the first part of `count8`, F the second. -/
theorem countByte : Obligations.CountByte := by
  intro s m decrement hm v
  obtain ⟨took, cpu, stored, outside⟩ := StepTarget.count_spec hm (count8 decrement) m
  have h := count8_countsTo decrement v s.cpu.f
  have hf : (m.count (count8 decrement) s).cpu.f = (count8 decrement v s.cpu.f).2 := by rw [cpu]
  rw [← hf] at cpu h
  exact ⟨_, _, exec_count s m decrement, took, h.value, cpu, stored, outside, h.carry, h.direction, h.half, h.overflow,
    h.result⟩

/-! ## DAA, CPL, NEG, CCF and SCF (rules R211 .. R215) -/

theorem toNat_complement (a : Byte) : (a ^^^ 0xFF#8).toNat = 255 - a.toNat := by
  rw [show 0xFF#8 = BitVec.allOnes 8 from rfl, BitVec.xor_allOnes, BitVec.toNat_not]

/-- NEG is a subtraction from 0 (rule R213). -/
theorem neg_flags (a : Byte) :
    (sub8 0#8 a false).1.toNat = (256 - a.toNat) % 256 ∧ (flagC (sub8 0#8 a false).2 = true ↔ a ≠ 0#8) ∧
      (flagP (sub8 0#8 a false).2 = true ↔ a = 0x80#8) ∧ (flagH (sub8 0#8 a false).2 = true ↔ a.toNat % 16 ≠ 0) ∧
      flagN (sub8 0#8 a false).2 = true ∧ ResultFlags (sub8 0#8 a false).2 (sub8 0#8 a false).1 := by
  obtain ⟨value, borrow, half, direction, overflow, result⟩ := sub8_subtractsTo 0#8 a false
  have ha := a.isLt
  simp only [show bitNat false = 0 from rfl, Overflow8, toInt_byte, BitVec.toNat_ofNat] at value borrow half overflow
  simp only [ne_eq, ← BitVec.toNat_inj, BitVec.toNat_ofNat]
  refine ⟨?_, borrow.trans ?_, overflow.trans ?_, half.trans ?_, direction, result⟩
  · omega
  · omega
  · split <;> omega
  · omega

/-- Settles O31: each is its fetch and a write of A and F, or of F alone, with the flags of its own rule. -/
theorem accumulatorAndFlags : Obligations.AccumulatorAndFlags := by
  refine ⟨fun s => ?_, fun s => ?_, fun s y => ?_, fun s => ?_, fun s => ?_⟩
  · obtain ⟨value, carry, direction, half, parity, result⟩ := daa8_adjustsTo s.cpu.a s.cpu.f
    exact ⟨_, rfl, took_fetched s 1 1 4, rfl, fun _ => rfl, rfl, ⟨value, carry, direction, half⟩, parity, result⟩
  · exact ⟨_, rfl, took_fetched s 1 1 4, rfl, fun _ => rfl, rfl, toNat_complement _, cplFlags_flags ..⟩
  · exact ⟨_, rfl, took_fetched s 2 2 8, rfl, fun _ => rfl, rfl, neg_flags _⟩
  · exact ⟨_, rfl, took_fetched s 1 1 4, rfl, fun _ => rfl, rfl, ccfFlags_flags ..⟩
  · exact ⟨_, rfl, took_fetched s 1 1 4, rfl, fun _ => rfl, rfl, scfFlags_flags ..⟩

/-! ## Decimal arithmetic (rule R211) -/

/-- The idea of DAA (rule R211): of a high digit `x` and a low digit `y`, each perhaps out of range after binary arithmetic,
6 for every ten in `y` and 0x60 for every ten in `x` with the tens of `y` make the decimal form of `10 * x + y`, for
`16 * x + y + 6 * (y / 10)` is 16 times the carried high digit plus `y % 10`. -/
theorem bcd_of_corrected {x y : Int} {r f : Byte}
    (hr : (r.toNat : Int) = (16 * x + y + 6 * (y / 10) + 0x60 * ((x + y / 10) / 10)) % 256)
    (hf : flagC f = true ↔ (x + y / 10) / 10 ≠ 0) :
    isBcd r ∧ (bcdValue r : Int) = (10 * x + y) % 100 ∧ (flagC f = true ↔ 10 * x + y < 0 ∨ 100 ≤ 10 * x + y) := by
  have digits : (r.toNat : Int) = 16 * ((x + y / 10) % 10) + y % 10 := by omega
  unfold isBcd bcdValue
  refine ⟨by omega, by omega, hf.trans (by omega)⟩

section
variable {a n r f r' f' : Byte} {c : Nat} {x y : Int}
  (ha : isBcd a) (hn : isBcd n) (hc : c ≤ 1)
include ha hn hc

/-- After an addition of decimal digits, DAA's corrections are the decimal carries. -/
theorem corrections_after_add (h : AddsTo a n c r f) (hx : x = (a.toNat / 16 : Nat) + (n.toNat / 16 : Nat))
    (hy : y = (a.toNat % 16 : Nat) + (n.toNat % 16 : Nat) + c) :
    (daaLow r f : Int) = 6 * (y / 10) ∧ (daaHigh r f : Int) = 0x60 * ((x + y / 10) / 10) := by
  have hr := h.value
  unfold isBcd at ha hn
  simp only [daaLow, daaHigh, h.half, h.carry]
  constructor
  · split <;> omega
  · split <;> omega

/-- After a subtraction of decimal digits, DAA's corrections are the decimal borrows. -/
theorem corrections_after_sub (h : SubtractsTo a n c r f) (hx : x = (a.toNat / 16 : Nat) - (n.toNat / 16 : Nat))
    (hy : y = (a.toNat % 16 : Nat) - (n.toNat % 16 : Nat) - c) :
    (daaLow r f : Int) = -(6 * (y / 10)) ∧ (daaHigh r f : Int) = -(0x60 * ((x + y / 10) / 10)) := by
  have hr := h.value
  unfold isBcd at ha hn
  simp only [daaLow, daaHigh, h.half, h.borrow]
  constructor
  · split <;> omega
  · rcases Nat.lt_or_ge a.toNat (n.toNat + c) with hb | hb <;> split <;> omega

/-- DAA after a binary addition of decimal digits leaves their decimal sum. -/
theorem daa_after_add (h : AddsTo a n c r f) (d : AdjustsTo r f r' f') :
    isBcd r' ∧ (bcdValue r' : Int) = ((bcdValue a : Int) + bcdValue n + c) % 100 ∧
      (flagC f' = true ↔ (bcdValue a : Int) + bcdValue n + c < 0 ∨ 100 ≤ (bcdValue a : Int) + bcdValue n + c) := by
  obtain ⟨x, hx⟩ : ∃ x : Int, x = (a.toNat / 16 : Nat) + (n.toNat / 16 : Nat) := ⟨_, rfl⟩
  obtain ⟨y, hy⟩ : ∃ y : Int, y = (a.toNat % 16 : Nat) + (n.toNat % 16 : Nat) + c := ⟨_, rfl⟩
  obtain ⟨low, high⟩ := corrections_after_add ha hn hc h hx hy
  have total : (bcdValue a : Int) + bcdValue n + c = 10 * x + y := by unfold bcdValue; omega
  have hr := h.value
  have hr' := d.value
  rw [h.direction, if_neg Bool.false_ne_true, low, high] at hr'
  rw [total]
  exact bcd_of_corrected (by omega) (d.carry.trans (by omega))

/-- DAA after a binary subtraction of decimal digits leaves their decimal difference. -/
theorem daa_after_sub (h : SubtractsTo a n c r f) (d : AdjustsTo r f r' f') :
    isBcd r' ∧ (bcdValue r' : Int) = ((bcdValue a : Int) - bcdValue n - c) % 100 ∧
      (flagC f' = true ↔ (bcdValue a : Int) - bcdValue n - c < 0 ∨ 100 ≤ (bcdValue a : Int) - bcdValue n - c) := by
  obtain ⟨x, hx⟩ : ∃ x : Int, x = (a.toNat / 16 : Nat) - (n.toNat / 16 : Nat) := ⟨_, rfl⟩
  obtain ⟨y, hy⟩ : ∃ y : Int, y = (a.toNat % 16 : Nat) - (n.toNat % 16 : Nat) - c := ⟨_, rfl⟩
  obtain ⟨low, high⟩ := corrections_after_sub ha hn hc h hx hy
  have total : (bcdValue a : Int) - bcdValue n - c = 10 * x + y := by unfold bcdValue; omega
  have hr := h.value
  have hr' := d.value
  rw [h.direction, if_pos rfl, low, high] at hr'
  rw [total]
  exact bcd_of_corrected (by omega) (d.carry.trans (by omega))

end

/-- Settles O32: what `add8` and `sub8` leave is what DAA corrects to the decimal sum and difference. -/
theorem decimalAdjust : Obligations.DecimalAdjust := by
  intro s n subtract ha hn
  have hc := bitNat_le_one (flagC s.cpu.f)
  cases subtract
  case false => exact ⟨_, _, rfl, rfl, daa_after_add ha hn hc (add8_addsTo ..) (daa8_adjustsTo ..)⟩
  case true => exact ⟨_, _, rfl, rfl, daa_after_sub ha hn hc (sub8_subtractsTo ..) (daa8_adjustsTo ..)⟩

/-! ## The helpers (rules R190, R216) -/

/-- Settles O26: the helpers with their masks written out, and P/V of `sz53p` by counting the 1 bits. -/
theorem flagHelpers : Obligations.FlagHelpers := by
  refine ⟨fun v => ⟨?_, ?_⟩, fun v f => ⟨?_, ?_⟩⟩
  · simp [sz53, maskIf, maskZ]
  · simp [sz53p, parityEven_eq, maskIf, maskP]
  · simp [inc8, maskIf, maskC, maskH, maskP]
  · simp [dec8, maskIf, maskC, maskN, maskH, maskP]

end Sys2Proof.Machine
end

section
/-! Words16: the 16-bit arithmetic, from what each of the model's operations on words means in numbers (rules R230 .. R237). -/

namespace Sys2Proof.Machine

/-! ## Words as numbers (rules R7, R8) -/

/-- The sign test of the 16-bit overflow rules (rules R231, R232). -/
theorem and_signWord_ne_zero (v : Word) : ((v &&& 0x8000#16) != 0#16) = v.msb := by
  rw [show 0x8000#16 = BitVec.twoPow 16 15 from rfl, BitVec.and_twoPow, BitVec.msb_eq_getLsbD_last]
  cases v.getLsbD (16 - 1) <;> rfl

theorem toInt_word (v : Word) : v.toInt = if 32768 ≤ v.toNat then (v.toNat : Int) - 65536 else v.toNat := by
  rw [BitVec.toInt_eq_msb_cond, v.msb_eq_decide]
  simp

/-! ## The flag byte of a 16-bit result (rules R26, R231, R232) -/

/-- The flags of the result `r`, with H, P/V, N and C as given. -/
def wordResultByte (r : Word) (h p n c : Bool) : Byte :=
  sz53w r ||| maskIf n maskN ||| maskIf h maskH ||| maskIf p maskP ||| maskIf c maskC

theorem bit_wordResultByte (r : Word) (h p n c : Bool) (i : Nat) :
    bit (wordResultByte r h p n c) i =
      (bit (hiByte r) i && (bit maskS i || bit maskXY i) || r == 0#16 && bit maskZ i || n && bit maskN i ||
        h && bit maskH i || p && bit maskP i || c && bit maskC i) := by
  simp only [wordResultByte, sz53w, bit_or, bit_and, bit_maskIf]

/-- S, Y and X are those of the high byte, and Z says whether the whole word is zero. -/
def WordResultFlags (f : Byte) (r : Word) : Prop :=
  flagS f = bit (hiByte r) 7 ∧ (flagZ f = true ↔ r = 0#16) ∧ FlagsXY f (hiByte r)

theorem wordResultFlags_wordResultByte (r : Word) (h p n c : Bool) :
    WordResultFlags (wordResultByte r h p n c) r := by
  simp only [WordResultFlags, FlagsXY, flagS, flagZ, flagY, flagX, bit_wordResultByte]
  simp [bit, maskS, maskZ, maskXY, maskH, maskP, maskN, maskC]

/-- H, P/V, N and C of the byte are the ones it was given. -/
theorem flags_wordResultByte (r : Word) (h p n c : Bool) :
    flagH (wordResultByte r h p n c) = h ∧ flagP (wordResultByte r h p n c) = p ∧
      flagN (wordResultByte r h p n c) = n ∧ flagC (wordResultByte r h p n c) = c := by
  simp only [flagH, flagP, flagN, flagC, bit_wordResultByte]
  simp [bit, maskS, maskZ, maskXY, maskH, maskP, maskN, maskC]

/-! ## `adc16` and `sbc16` (rules R231, R232) -/

/-- The sum overflows exactly when its sign is neither operand's (rule R231). -/
theorem add_overflow_word {a b r : Word} {c : Nat} (hc : c ≤ 1) (hr : r.toNat = (a.toNat + b.toNat + c) % 65536) :
    ((a ^^^ r) &&& (b ^^^ r) &&& 0x8000#16 != 0#16) = true ↔
      a.toInt + b.toInt + c < -32768 ∨ 32767 < a.toInt + b.toInt + c := by
  rw [and_signWord_ne_zero, BitVec.msb_and, BitVec.msb_xor, BitVec.msb_xor, a.msb_eq_decide, b.msb_eq_decide,
    r.msb_eq_decide, toInt_word, toInt_word]
  have ha := a.isLt
  have hb := b.isLt
  by_cases h1 : 32768 ≤ a.toNat <;> by_cases h2 : 32768 ≤ b.toNat <;> simp [h1, h2] <;> omega

/-- The difference overflows exactly when the operands' signs differ and its own is not the first one's (rule R232). -/
theorem sub_overflow_word {a b r : Word} {c : Nat} (hc : c ≤ 1)
    (hr : (r.toNat : Int) = ((a.toNat : Int) - b.toNat - c) % 65536) :
    ((a ^^^ b) &&& (a ^^^ r) &&& 0x8000#16 != 0#16) = true ↔
      a.toInt - b.toInt - c < -32768 ∨ 32767 < a.toInt - b.toInt - c := by
  rw [and_signWord_ne_zero, BitVec.msb_and, BitVec.msb_xor, BitVec.msb_xor, a.msb_eq_decide, b.msb_eq_decide,
    r.msb_eq_decide, toInt_word, toInt_word]
  have ha := a.isLt
  have hb := b.isLt
  by_cases h1 : 32768 ≤ a.toNat <;> by_cases h2 : 32768 ≤ b.toNat <;> simp [h1, h2] <;> omega

/-- ADC's sum and its flags, over the integers. -/
theorem adc16_spec (a b : Word) (carry : Bool) :
    let r := (adc16 a b carry).1
    let f := (adc16 a b carry).2
    let c := bitNat carry
    r.toNat = (a.toNat + b.toNat + c) % 65536 ∧ (flagC f = true ↔ 65536 ≤ a.toNat + b.toNat + c) ∧
      (flagH f = true ↔ 4096 ≤ a.toNat % 4096 + b.toNat % 4096 + c) ∧ flagN f = false ∧
      Overflow16 f (a.toInt + b.toInt + c) ∧ WordResultFlags f r := by
  intro r f c
  have hr : r.toNat = (a.toNat + b.toNat + c) % 65536 := BitVec.toNat_ofNat ..
  have hf : f = wordResultByte r (decide (a.toNat % 0x1000 + b.toNat % 0x1000 + c > 0x0FFF))
      ((a ^^^ r) &&& (b ^^^ r) &&& 0x8000#16 != 0#16) false (decide (a.toNat + b.toNat + c > 0xFFFF)) := by
    simp [f, r, c, adc16, wordResultByte, maskIf]
  obtain ⟨half, overflow, direction, carryOut⟩ := hf ▸ flags_wordResultByte ..
  refine ⟨hr, ?_, ?_, direction, ?_, hf ▸ wordResultFlags_wordResultByte ..⟩
  · rw [carryOut, decide_eq_true_eq]
    exact Nat.lt_iff_add_one_le
  · rw [half, decide_eq_true_eq]
    exact Nat.lt_iff_add_one_le
  · rw [Overflow16, overflow, add_overflow_word (bitNat_le_one carry) hr]

/-- SBC's difference and its flags, over the integers. -/
theorem sbc16_spec (a b : Word) (borrow : Bool) :
    let r := (sbc16 a b borrow).1
    let f := (sbc16 a b borrow).2
    let c := bitNat borrow
    (r.toNat : Int) = ((a.toNat : Int) - b.toNat - c) % 65536 ∧ (flagC f = true ↔ a.toNat < b.toNat + c) ∧
      (flagH f = true ↔ a.toNat % 4096 < b.toNat % 4096 + c) ∧ flagN f = true ∧
      Overflow16 f (a.toInt - b.toInt - c) ∧ WordResultFlags f r := by
  intro r f c
  have hr : (r.toNat : Int) = ((a.toNat : Int) - b.toNat - c) % 65536 := by
    rw [show r = BitVec.ofInt 16 ((a.toNat : Int) - b.toNat - c) from rfl, BitVec.toNat_ofInt]
    omega
  have hf : f = wordResultByte r (decide (((a.toNat % 0x1000 : Nat) : Int) - (b.toNat % 0x1000 : Nat) - c < 0))
      ((a ^^^ b) &&& (a ^^^ r) &&& 0x8000#16 != 0#16) true (decide ((a.toNat : Int) - b.toNat - c < 0)) := rfl
  obtain ⟨half, overflow, direction, carryOut⟩ := hf ▸ flags_wordResultByte ..
  refine ⟨hr, ?_, ?_, direction, ?_, hf ▸ wordResultFlags_wordResultByte ..⟩
  · rw [carryOut, decide_eq_true_eq]
    omega
  · rw [half, decide_eq_true_eq]
    omega
  · rw [Overflow16, overflow, sub_overflow_word (bitNat_le_one borrow) hr]

/-! ## `add16` (rule R230) -/

/-- ADD's sum and its flags: S, Z and P/V kept, Y and X those of the high byte. -/
theorem add16_spec (a b : Word) (f : Byte) :
    let r := (add16 a b f).1
    let g := (add16 a b f).2
    r.toNat = (a.toNat + b.toNat) % 65536 ∧ (flagC g = true ↔ 65536 ≤ a.toNat + b.toNat) ∧
      (flagH g = true ↔ 4096 ≤ a.toNat % 4096 + b.toNat % 4096) ∧ flagN g = false ∧ KeptSZP f g ∧
      FlagsXY g (hiByte r) := by
  refine ⟨BitVec.toNat_ofNat .., ?_⟩
  simp only [KeptSZP, FlagsXY, flagS, flagZ, flagY, flagX, flagP, flagH, flagN, flagC, add16, bit_or, bit_and, bit_maskIf]
  simp [bit, maskSZP, maskC, maskH, maskXY, Nat.lt_iff_add_one_le]

/-! ## Instructions that write a word and F after their fetch -/

/-- An instruction that writes HL and F after its fetch. -/
theorem exec_of_setHlF {i : Instr} {s : State} {w : Word × Byte} {n k tt : Nat}
    (h : exec i s = .next ((s.fetched n k tt).setHlF w)) :
    ∃ t, exec i s = .next t ∧ Took s t n k tt ∧ SameBytes s t ∧ SameOutside s t ∧
      t.cpu = { s.cpu with h := t.cpu.h, l := t.cpu.l, f := t.cpu.f, pc := t.cpu.pc, r := t.cpu.r } ∧
      t.cpu.hl = w.1 ∧ t.cpu.h = hiByte w.1 ∧ t.cpu.f = w.2 :=
  ⟨_, h, took_fetched s n k tt, fun _ => rfl, rfl, rfl, mkWord_hiByte_loByte w.1, rfl, rfl⟩

/-- An instruction that writes an index register and F after its fetch. -/
theorem exec_of_setXyF {i : Instr} {s : State} {xy : Xy} {w : Word × Byte} {n k tt : Nat}
    (h : exec i s = .next ((s.fetchedIdx xy n k tt).setXyF xy w)) :
    ∃ t, exec i s = .next t ∧ Took s t n k tt ∧ SameBytes s t ∧ SameOutside s t ∧
      t.cpu = { (s.setXy xy (t.cpu.xy xy)).cpu with f := t.cpu.f, pc := t.cpu.pc, r := t.cpu.r } ∧
      (t.cpu.xy xy, t.cpu.f) = w := by
  cases xy <;> exact ⟨_, h, ⟨rfl, rfl, rfl⟩, fun _ => rfl, rfl, rfl, rfl⟩

/-- ADD of an index register reads `rp[2]` as that register (rule R233). -/
theorem exec_addXyRp (s : State) (xy : Xy) (p : Rp) :
    exec (.addXyRp xy p) s = .next ((s.fetchedIdx xy 2 2 15).setXyF xy
      (add16 (s.cpu.xy xy) (if p = .hl then s.cpu.xy xy else s.cpu.rp p) s.cpu.f)) := by
  cases xy <;> cases p <;> rfl

/-! ## Counting a word (rules R234 .. R237) -/

theorem add_one_word (v : Word) : v + 1#16 = BitVec.ofNat 16 (v.toNat + 1) := by simp [BitVec.ofNat_add]

theorem sub_one_word (v : Word) : v - 1#16 = BitVec.ofNat 16 (v.toNat + 65535) := by
  rw [BitVec.ofNat_add, BitVec.ofNat_toNat, BitVec.setWidth_eq]
  exact BitVec.sub_eq_add_neg v 1#16

/-- Settles O33: ADD, ADC and SBC are `add16`, `adc16` and `sbc16` after the fetch, written with F; INC and DEC are one write
of a register. -/
theorem arithmetic16 : Obligations.Arithmetic16 := by
  refine ⟨fun a b f g r h => ?_, fun s p => ?_, fun s xy p => exec_of_setXyF (exec_addXyRp s xy p), fun s p => ?_,
    fun s p => ?_, fun s p => ⟨?_, ?_⟩, fun s xy => ⟨?_, ?_⟩⟩
  · obtain ⟨rfl, rfl⟩ := Prod.mk.inj h
    exact add16_spec a b f
  · have run : exec (.addHlRp p) s = .next ((s.fetched 1 1 11).setHlF (add16 s.cpu.hl (s.cpu.rp p) s.cpu.f)) := by
      cases p <;> rfl
    obtain ⟨t, ht, took, bytes, outside, cpu, hl, -, hf⟩ := exec_of_setHlF run
    exact ⟨t, ht, took, bytes, outside, cpu, Prod.ext hl hf⟩
  · have run : exec (.adcHlRp p) s =
        .next ((s.fetched 2 2 15).setHlF (adc16 s.cpu.hl (s.cpu.rp p) (flagC s.cpu.f))) := by
      cases p <;> rfl
    obtain ⟨t, ht, took, bytes, outside, cpu, hl, hh, hf⟩ := exec_of_setHlF run
    refine ⟨t, ht, took, bytes, outside, cpu, ?_⟩
    rw [hl, hh, hf]
    exact adc16_spec ..
  · have run : exec (.sbcHlRp p) s =
        .next ((s.fetched 2 2 15).setHlF (sbc16 s.cpu.hl (s.cpu.rp p) (flagC s.cpu.f))) := by
      cases p <;> rfl
    obtain ⟨t, ht, took, bytes, outside, cpu, hl, hh, hf⟩ := exec_of_setHlF run
    refine ⟨t, ht, took, bytes, outside, cpu, ?_⟩
    rw [hl, hh, hf]
    exact sbc16_spec ..
  · rw [← add_one_word, ← (atFetch_fetched s 1 1 6).rp]
    exact .of_setRp rfl (atFetch_fetched ..) (took_fetched ..)
  · rw [← sub_one_word, ← (atFetch_fetched s 1 1 6).rp]
    exact .of_setRp rfl (atFetch_fetched ..) (took_fetched ..)
  · rw [← add_one_word, ← (atFetch_fetchedIdx s xy 2 2 10).xy]
    exact .of_setXy rfl (atFetch_fetchedIdx ..) (took_fetchedIdx ..)
  · rw [← sub_one_word, ← (atFetch_fetchedIdx s xy 2 2 10).xy]
    exact .of_setXy rfl (atFetch_fetchedIdx ..) (took_fetchedIdx ..)

end Sys2Proof.Machine
end

section
/-! Rotates: rotates, shifts and the bit instructions, from what each of the model's operations on bytes does to the single
bits (rules R250 .. R275). -/

namespace Sys2Proof.Machine

/-! ## The moved bits (rule R254) -/

/-- A rotate or shift is a shift by one with the incoming bit put in where the byte was vacated. -/
theorem rotResult_eq (op : RotOp) (v : Byte) (c : Bool) :
    rotResult op v c =
      if op.left then v <<< 1 ||| maskIf (op.fill v c) 0x01#8 else v >>> 1 ||| maskIf (op.fill v c) 0x80#8 := by
  have sign : v &&& 0x80#8 = maskIf (bit v 7) 0x80#8 := by
    revert v
    decide
  cases op with
  | sla => exact BitVec.or_zero.symm
  | srl => exact BitVec.or_zero.symm
  | sra => exact congrArg (v >>> 1 ||| ·) sign
  | _ => rfl

theorem shiftedBy_shiftLeft (v : Byte) (b : Bool) : ShiftedBy true v (v <<< 1 ||| maskIf b 0x01#8) b := by
  refine ⟨?_, fun i hi => ?_⟩
  · rw [bit_or, bit_maskIf]
    simp [bit]
  · have hi8 : i + 1 < 8 := Nat.succ_lt_succ hi
    rw [bit_or, bit_maskIf]
    simp [bit, hi8, Nat.lt_succ_of_lt hi]

theorem shiftedBy_shiftRight (v : Byte) (b : Bool) : ShiftedBy false v (v >>> 1 ||| maskIf b 0x80#8) b := by
  refine ⟨?_, fun i hi => ?_⟩
  · rw [bit_or, bit_maskIf]
    simp [bit]
  · have hi7 : bit 0x80#8 i = false := by
      revert i
      decide
    rw [bit_or, bit_maskIf, hi7]
    simp [bit, Nat.add_comm]

theorem shiftedBy_rotResult (op : RotOp) (v : Byte) (c : Bool) :
    ShiftedBy op.left v (rotResult op v c) (op.fill v c) := by
  rw [rotResult_eq]
  cases op.left
  · exact shiftedBy_shiftRight ..
  · exact shiftedBy_shiftLeft ..

theorem rotOut_eq (op : RotOp) (v : Byte) : rotOut op v = if op.left then bit v 7 else bit v 0 := by
  cases op <;> rfl

/-! ## The flags of rotates and bit tests (rules R250 .. R254, R264, R265, R270 .. R272) -/

theorem resultByte_or_carry (r : Byte) (h p n c : Bool) :
    resultByte r h p n false ||| maskIf c maskC = resultByte r h p n c :=
  congrArg (· ||| maskIf c maskC) BitVec.or_zero

/-- C as given, P/V the parity, H and N clear: the flags rotates, RLD and RRD leave (rules R254, R264). -/
theorem flags_of_parity (r : Byte) (c : Bool) :
    let g := resultByte r false (parityEven r) false c
    flagC g = c ∧ flagH g = false ∧ flagN g = false ∧ ParityFlag g r ∧ ResultFlags g r :=
  ⟨flagC_resultByte .., flagH_resultByte .., flagN_resultByte .., parityFlag_resultByte .., resultFlags_resultByte ..⟩

theorem rot8_flags (op : RotOp) (v f : Byte) :
    let r := (rot8 op v f).1
    let g := (rot8 op v f).2
    flagC g = rotOut op v ∧ flagH g = false ∧ flagN g = false ∧ ParityFlag g r ∧ ResultFlags g r := by
  simp only [rot8, sz53p_eq, resultByte_or_carry]
  exact flags_of_parity ..

theorem rotA_flags (op : RotOp) (a f : Byte) :
    flagC (rotA op a f).2 = rotOut op a ∧ flagH (rotA op a f).2 = false ∧ flagN (rotA op a f).2 = false ∧
      KeptSZP f (rotA op a f).2 ∧ FlagsXY (rotA op a f).2 (rotA op a f).1 := by
  simp only [KeptSZP, FlagsXY, flagS, flagZ, flagY, flagX, flagP, flagH, flagN, flagC, rotA, bit_or, bit_and, bit_maskIf]
  simp [bit, maskSZP, maskXY, maskC]

theorem inFlags_flags (v f : Byte) :
    let g := inFlags v f
    flagC g = flagC f ∧ flagH g = false ∧ flagN g = false ∧ ParityFlag g v ∧ ResultFlags g v := by
  rw [inFlags, and_maskC, BitVec.or_comm, sz53p_eq, resultByte_or_carry]
  exact flags_of_parity ..

/-- One bit of a byte, alone, is a mask that is there when the bit is set. -/
theorem and_bitMask (v : Byte) (y : Fin 8) : v &&& bitMask y = maskIf (bit v y) (bitMask y) := by
  rw [bitMask, ← BitVec.twoPow_eq, BitVec.and_twoPow]
  rfl

theorem bit_bitMask (y : Fin 8) {j : Nat} (hj : j < 8) : bit (bitMask y) j = decide (j = y) := by
  revert y j
  decide

theorem bitMask_ne_zero (y : Fin 8) : bitMask y ≠ 0#8 := by
  revert y
  decide

theorem bitFlags_flags (y : Fin 8) (v xySource f : Byte) :
    let g := bitFlags y v xySource f
    flagZ g = !bit v y ∧ flagP g = !bit v y ∧ flagS g = (bit v 7 && decide (y.val = 7)) ∧ flagH g = true ∧
      flagN g = false ∧ flagC g = flagC f ∧ FlagsXY g xySource := by
  have zero : (v &&& bitMask y == 0#8) = !bit v y := by
    rw [and_bitMask]
    cases bit v y
    · rfl
    · exact beq_false_of_ne (bitMask_ne_zero y)
  have sign : bit (bitMask y) 7 = decide (y.val = 7) := by
    rw [bit_bitMask y (by decide), decide_eq_decide]
    exact eq_comm
  simp only [FlagsXY, flagS, flagZ, flagY, flagX, flagP, flagH, flagN, flagC, bitFlags, zero, bit_or, bit_and, bit_maskIf,
    sign]
  simp [bit, maskC, maskH, maskZ, maskP, maskS, maskXY]

/-! ## Single bits and digits (rules R264, R265, R273, R274) -/

theorem bit_setBit (y : Fin 8) (v : Byte) {j : Nat} (hj : j < 8) :
    bit (setBit y v) j = if j = y then true else bit v j := by
  rw [setBit, bit_or, bit_bitMask y hj]
  by_cases h : j = y <;> simp [h]

theorem bit_resBit (y : Fin 8) (v : Byte) {j : Nat} (hj : j < 8) :
    bit (resBit y v) j = if j = y then false else bit v j := by
  have hnot : bit (~~~bitMask y) j = !bit (bitMask y) j := by simp [bit, hj]
  rw [resBit, bit_and, hnot, bit_bitMask y hj]
  by_cases h : j = y <;> simp [h]

theorem toNat_high_nibble (v : Byte) : (v &&& 0xF0#8).toNat = v.toNat / 16 * 16 := by
  revert v
  decide

theorem toNat_shiftLeft_nibble (v : Byte) : (v <<< 4).toNat = v.toNat % 16 * 16 := by
  revert v
  decide

theorem toNat_shiftRight_nibble (v : Byte) : (v >>> 4).toNat = v.toNat / 16 := by
  rw [BitVec.toNat_ushiftRight, Nat.shiftRight_eq_div_pow]

/-- A high and a low digit put together. -/
theorem toNat_or_of_digits {x y : Byte} {high low : Nat} (hx : x.toNat = high * 16) (hy : y.toNat = low) (hlow : low < 16) :
    (x ||| y).toNat = high * 16 + low := by
  rw [BitVec.toNat_or, hx, hy, Nat.mul_comm]
  exact (Nat.two_pow_add_eq_or_of_lt (i := 4) hlow high).symm

theorem rld8_digits (a m : Byte) :
    (rld8 a m).1.toNat = a.toNat / 16 * 16 + m.toNat / 16 ∧
      (rld8 a m).2.toNat = m.toNat % 16 * 16 + a.toNat % 16 :=
  ⟨toNat_or_of_digits (toNat_high_nibble a) (toNat_shiftRight_nibble m) (by have := m.isLt; omega),
    toNat_or_of_digits (toNat_shiftLeft_nibble m) (toNat_low_nibble a) (Nat.mod_lt _ (by decide))⟩

theorem rrd8_digits (a m : Byte) :
    (rrd8 a m).1.toNat = a.toNat / 16 * 16 + m.toNat % 16 ∧
      (rrd8 a m).2.toNat = a.toNat % 16 * 16 + m.toNat / 16 :=
  ⟨toNat_or_of_digits (toNat_high_nibble a) (toNat_low_nibble m) (Nat.mod_lt _ (by decide)),
    toNat_or_of_digits (toNat_shiftLeft_nibble a) (toNat_shiftRight_nibble m) (by have := m.isLt; omega)⟩

/-! ## A byte write at the end of an instruction (rule R62) -/

section
variable {s u : State} (a : Word) (v : Byte)

theorem Took.write8 {n k tt : Nat} (h : Took s u n k tt) : Took s (u.write8 a v) n k tt := by
  simpa [Took] using h

theorem SameOutside.write8 (h : SameOutside s u) : SameOutside s (u.write8 a v) := by
  unfold SameOutside at *
  rw [State.write8_eq, h]

theorem StoredByte.write8_of_mem_eq (hm : s.mem.wf = true) (h : u.mem = s.mem) : StoredByte s (u.write8 a v) a v := by
  intro x
  rw [storedByte_write8 (h ▸ hm) a v x, State.read8, h]
  rfl

end

/-! ## Rotates of A (rules R250 .. R253, R264, R265) -/

/-- The operation behind each of the four rotates of A alone. -/
def accRotOp : Bool → Bool → RotOp
  | true, false => .rlc
  | true, true => .rl
  | false, false => .rrc
  | false, true => .rr

theorem exec_accRotInstr (s : State) (left through : Bool) :
    exec (accRotInstr left through) s = .next (s.rotateA (accRotOp left through)) := by
  cases left <;> cases through <;> rfl

theorem left_accRotOp (left through : Bool) : (accRotOp left through).left = left := by
  cases left <;> cases through <;> rfl

theorem fill_accRotOp (left through : Bool) (v : Byte) (c : Bool) :
    (accRotOp left through).fill v c = if through then c else if left then bit v 7 else bit v 0 := by
  cases left <;> cases through <;> rfl

/-- RLD and RRD: A and F after the fetch, then the byte at HL (rules R264, R265). -/
theorem rotateDigits_spec {s : State} (hm : s.mem.wf = true) (f : Byte → Byte → Byte × Byte) :
    let t := s.rotateDigits f
    let w := f s.cpu.a (s.read8 s.cpu.hl)
    Took s t 2 2 18 ∧ OnlyAF s.cpu t.cpu ∧ StoredByte s t s.cpu.hl w.2 ∧ SameOutside s t ∧
      t.cpu.a = w.1 ∧ t.cpu.f = inFlags w.1 s.cpu.f := by
  intro t w
  have cpu : t.cpu = ((s.fetched 2 2 18).setAF (w.1, inFlags w.1 s.cpu.f)).cpu := State.write8_cpu ..
  rw [cpu]
  exact ⟨.write8 _ _ (took_fetched s 2 2 18), rfl, .write8_of_mem_eq _ _ hm rfl, .write8 _ _ rfl, rfl, rfl⟩

theorem exec_digits (s : State) (left : Bool) :
    exec (if left then .rld else .rrd) s = .next (s.rotateDigits (if left then rld8 else rrd8)) := by
  cases left <;> rfl

/-- Settles O40: the rotates of A are `rotA`, RLD and RRD are `rld8` and `rrd8` on A and the byte at HL. -/
theorem accumulatorRotates : Obligations.AccumulatorRotates := by
  refine ⟨fun s left through => ?_, fun s left hm => ?_⟩
  · intro out
    have moved := shiftedBy_rotResult (accRotOp left through) s.cpu.a (flagC s.cpu.f)
    obtain ⟨carry, rest⟩ := rotA_flags (accRotOp left through) s.cpu.a s.cpu.f
    rw [left_accRotOp, fill_accRotOp] at moved
    rw [rotOut_eq, left_accRotOp] at carry
    exact ⟨_, exec_accRotInstr s left through, took_fetched s 1 1 4, rfl, fun _ => rfl, rfl, moved, carry, rest⟩
  · intro m digit
    obtain ⟨took, cpu, stored, outside, ha, hf⟩ := rotateDigits_spec hm (if left then rld8 else rrd8)
    refine ⟨_, _, exec_digits s left, took, cpu, stored, outside, ?_⟩
    rw [hf, ha]
    cases left
    case true =>
      obtain ⟨acc, mem⟩ := rld8_digits s.cpu.a (s.read8 s.cpu.hl)
      exact ⟨mem, acc, inFlags_flags ..⟩
    case false =>
      obtain ⟨acc, mem⟩ := rrd8_digits s.cpu.a (s.read8 s.cpu.hl)
      exact ⟨mem, acc, inFlags_flags ..⟩

/-! ## Rotates, shifts, SET and RES in their four forms (rules R254 .. R263, R273 .. R275) -/

/-- The state after the fetch of each form. -/
def BitTarget.fetched (s : State) : BitTarget → State
  | .reg _ => s.fetched 2 2 8
  | .memHl => s.fetched 2 2 15
  | .xyd xy _ => s.fetchedIdx xy 4 2 23
  | .xydCopy xy _ _ => s.fetchedIdx xy 4 2 23

/-- The byte `v` stored at the address an instruction writes, if any. -/
def State.storeAt (u : State) (a : Option Word) (v : Byte) : State :=
  match a with
  | some a => u.write8 a v
  | none => u

/-- After its fetch, F takes `f` and the operand's place and the copy register take `v`. -/
def BitTarget.write (s : State) (v f : Byte) (m : BitTarget) : State :=
  let u := ((m.fetched s).setF f).storeAt (m.address s) v
  u.setCpu (u.cpu.withReg m.register v)

/-- Fetching and writing F is all these instructions do before they write their result. -/
theorem BitTarget.setF_fetched_spec (s : State) (m : BitTarget) (f : Byte) :
    let u := (m.fetched s).setF f
    Took s u m.cost.1 m.cost.2.1 m.cost.2.2 ∧ u.cpu = { s.cpu with f := f, pc := u.cpu.pc, r := u.cpu.r } ∧
      u.mem = s.mem ∧ SameOutside s u := by
  cases m <;> exact ⟨⟨rfl, rfl, rfl⟩, rfl, rfl, rfl⟩

theorem exec_rotInstr (s : State) (op : RotOp) (m : BitTarget) :
    exec (rotInstr op m) s =
      .next (m.write s (rot8 op (m.value s) s.cpu.f).1 (rot8 op (m.value s) s.cpu.f).2) := by
  cases op <;> cases m <;> rfl

theorem exec_setResInstr (s : State) (y : Fin 8) (m : BitTarget) (set : Bool) :
    exec (if set then setInstr y m else resInstr y m) s =
      .next (m.write s ((if set then setBit else resBit) y (m.value s)) s.cpu.f) := by
  cases set <;> cases m <;> rfl

theorem Took.storeAt {s u : State} {n k tt : Nat} (a : Option Word) (v : Byte) (h : Took s u n k tt) :
    Took s (u.storeAt a v) n k tt := by
  cases a
  · exact h
  · exact h.write8 ..

theorem SameOutside.storeAt {s u : State} (a : Option Word) (v : Byte) (h : SameOutside s u) :
    SameOutside s (u.storeAt a v) := by
  cases a
  · exact h
  · exact h.write8 ..

theorem SameOutside.setCpu {s u : State} (c : Cpu) (h : SameOutside s u) : SameOutside s (u.setCpu c) := by
  unfold SameOutside State.setCpu at *
  rw [h]

theorem State.storeAt_cpu (u : State) (a : Option Word) (v : Byte) : (u.storeAt a v).cpu = u.cpu := by
  cases a
  · rfl
  · exact State.write8_cpu ..

theorem storedAt_storeAt {s u : State} (hm : s.mem.wf = true) (h : u.mem = s.mem) (a : Option Word) (v : Byte) :
    StoredAt s (u.storeAt a v) a v := by
  cases a with
  | none =>
    intro x
    rw [State.storeAt, State.read8, h]
    rfl
  | some a => exact .write8_of_mem_eq a v hm h

/-- The register an instruction writes is none of F, PC and R. -/
theorem Cpu.withReg_eq (c : Cpu) (q : Option Reg8) (v f r : Byte) (pc : Word) :
    ({ c with f := f, pc := pc, r := r } : Cpu).withReg q v = { c.withReg q v with f := f, pc := pc, r := r } := by
  cases q with
  | none => rfl
  | some q => cases q <;> rfl

theorem Cpu.withReg_f (c : Cpu) (q : Option Reg8) (v : Byte) : (c.withReg q v).f = c.f :=
  (congrArg Cpu.f (Cpu.withReg_eq c q v c.f c.r c.pc) :)

/-- All that such an instruction does, for any result `v` and flags `f`. -/
theorem BitTarget.write_spec {s : State} (hm : s.mem.wf = true) (m : BitTarget) (v f : Byte) :
    let t := m.write s v f
    Took s t m.cost.1 m.cost.2.1 m.cost.2.2 ∧
      t.cpu = { s.cpu.withReg m.register v with f := f, pc := t.cpu.pc, r := t.cpu.r } ∧
      StoredAt s t (m.address s) v ∧ SameOutside s t := by
  intro t
  obtain ⟨took, cpu, mem, outside⟩ := m.setF_fetched_spec s f
  have hcpu : t.cpu = { s.cpu.withReg m.register v with
      f := f, pc := ((m.fetched s).setF f).cpu.pc, r := ((m.fetched s).setF f).cpu.r } := by
    rw [← Cpu.withReg_eq, ← cpu]
    exact congrArg (·.withReg m.register v) (State.storeAt_cpu ..)
  obtain ⟨pc, r, cursor⟩ := took.storeAt (m.address s) v
  rw [State.storeAt_cpu] at pc r
  exact ⟨⟨(congrArg Cpu.pc hcpu).trans pc, (congrArg Cpu.r hcpu).trans r, cursor⟩, by rw [hcpu],
    storedAt_storeAt hm mem .., (outside.storeAt ..).setCpu _⟩

/-- Settles O41: each form writes the two parts of `rot8` on its operand. -/
theorem rotateAndShift : Obligations.RotateAndShift := by
  intro s op m hm v
  obtain ⟨took, cpu, stored, outside⟩ := m.write_spec hm (rot8 op v s.cpu.f).1 (rot8 op v s.cpu.f).2
  have flags := rot8_flags op v s.cpu.f
  rw [rotOut_eq] at flags
  have hf : (m.write s (rot8 op v s.cpu.f).1 (rot8 op v s.cpu.f).2).cpu.f = (rot8 op v s.cpu.f).2 := by rw [cpu]
  rw [← hf] at flags
  refine ⟨_, (rot8 op v s.cpu.f).1, exec_rotInstr s op m, took, shiftedBy_rotResult .., ?_, stored, outside, flags⟩
  rw [hf]
  exact cpu

/-- Settles O42: BIT writes `bitFlags` to F; each form of SET and RES writes the byte with one bit changed, and F back as it
was. -/
theorem testSetResetBit : Obligations.TestSetResetBit := by
  refine ⟨fun s y z i v xySource cost form => ?_, fun s y m set hm => ?_⟩
  · obtain ⟨r, rfl, rfl, rfl, rfl⟩ | ⟨rfl, rfl, rfl, rfl⟩ | ⟨xy, d, rfl, rfl, rfl, rfl⟩ := form
    · exact ⟨_, rfl, took_fetched s 2 2 8, rfl, fun _ => rfl, rfl, bitFlags_flags ..⟩
    · exact ⟨_, rfl, took_fetched s 2 2 12, rfl, fun _ => rfl, rfl, bitFlags_flags ..⟩
    · exact ⟨_, rfl, took_fetchedIdx s xy 4 2 20, rfl, fun _ => rfl, rfl, bitFlags_flags ..⟩
  · obtain ⟨took, cpu, stored, outside⟩ :=
      m.write_spec hm ((if set then setBit else resBit) y (m.value s)) s.cpu.f
    refine ⟨_, _, exec_setResInstr s y m set, took, fun j hj => ?_, cpu.trans ?_, stored, outside⟩
    · cases set
      · exact bit_resBit y _ hj
      · exact bit_setBit y _ hj
    · simp only [Cpu.withReg_f]

end Sys2Proof.Machine
end

section
/-! Transfers: the jumps, calls, returns and restarts, each a fetch and then one move of PC (rules R290 .. R307). -/

namespace Sys2Proof.Machine

/-! ## Where an instruction goes -/

section
variable {i : Instr} {s : State}

/-- An instruction that moves PC and changes registers alone after its fetch. -/
theorem JumpsTo.of_setCpu {u : State} {pc : Word} {c : Cpu} {n k tt : Nat}
    (h : exec i s = .next (u.setCpu { c with pc := pc, r := u.cpu.r })) (hu : AtFetch s u) (ht : Took s u n k tt) :
    JumpsTo i s pc c k tt := by
  obtain ⟨-, r, cursor⟩ := ht
  refine ⟨_, h, ⟨rfl, r, cursor⟩, rfl, fun x => hu.read8 x, ?_⟩
  unfold SameOutside State.setCpu
  rw [hu]

/-- The same behind the plain fetch of `n` bytes. -/
theorem JumpsTo.of_fetched {pc : Word} {c : Cpu} {n k tt : Nat}
    (h : exec i s = .next ((s.fetched n k tt).setCpu { c with pc := pc, r := (s.fetched n k tt).cpu.r })) :
    JumpsTo i s pc c k tt :=
  .of_setCpu h (atFetch_fetched ..) (took_fetched ..)

/-- An instruction that is its fetch alone goes to the byte after it. -/
theorem JumpsTo.of_untaken {n k tt : Nat} (h : exec i s = .next (s.fetched n k tt)) :
    JumpsTo i s (s.cpu.pc + BitVec.ofNat 16 n) s.cpu k tt :=
  .of_fetched (n := n) h

/-- A return takes PC from the stack (rules R76, R303). -/
theorem JumpsTo.of_popPc {n k tt : Nat} (h : exec i s = .next (s.fetched n k tt).popPc) :
    JumpsTo i s (mkWord (s.read8 (s.cpu.sp + 1#16)) (s.read8 s.cpu.sp)) { s.cpu with sp := s.cpu.sp + 2#16 } k tt := by
  rw [State.popPc_eq] at h
  exact .of_fetched h

/-- A return from an interrupt copies IFF2 to IFF1 as well (rules R305, R306). -/
theorem JumpsTo.of_returnFromInterrupt {n k tt : Nat} (h : exec i s = .next (s.fetched n k tt).returnFromInterrupt) :
    JumpsTo i s (mkWord (s.read8 (s.cpu.sp + 1#16)) (s.read8 s.cpu.sp))
      { s.cpu with sp := s.cpu.sp + 2#16, iff1 := s.cpu.iff2 } k tt := by
  rw [State.returnFromInterrupt_eq] at h
  exact .of_fetched h

/-- A relative jump counts from the byte after its two (rule R101). -/
theorem JumpsTo.of_jumpRel {c : Cpu} {e : Byte} {k tt : Nat}
    (h : exec i s = .next (((s.fetched 2 k tt).setCpu
      { c with pc := (s.fetched 2 k tt).cpu.pc, r := (s.fetched 2 k tt).cpu.r }).jumpRel e)) :
    JumpsTo i s (relTarget s.cpu.pc e) c k tt := by
  rw [← add_two_sext16]
  exact .of_fetched (n := 2) h

/-! The T-states that a taken call adds may as well have passed before the push. -/

theorem State.tick_write8 (s : State) (a : Word) (v : Byte) (k : Nat) :
    (s.write8 a v).tick k = (s.tick k).write8 a v := by
  unfold State.write8
  split <;> rfl

theorem State.tick_setSp (s : State) (v : Word) (k : Nat) : (s.setSp v).tick k = (s.tick k).setSp v := rfl

theorem State.tick_push16 (s : State) (v : Word) (k : Nat) : (s.push16 v).tick k = (s.tick k).push16 v := by
  simp only [State.push16, State.tick_write8, State.tick_setSp, State.write8_cpu, State.setSp_cpu, State.tick_cpu]

theorem State.tick_callTo (s : State) (target : Word) (k : Nat) :
    (s.callTo target).tick k = (s.tick k).callTo target :=
  congrArg (·.setPc target) (State.tick_push16 s s.cpu.pc k)

/-- A call pushes the address of the byte after its `n` (rules R76, R301). -/
theorem CallsTo.of_callTo {target : Word} {n k tt : Nat} (hm : s.mem.wf = true)
    (h : exec i s = .next ((s.fetched n k tt).callTo target)) :
    CallsTo i s target (s.cpu.pc + BitVec.ofNat 16 n) k tt := by
  rw [State.callTo_eq] at h
  exact ⟨_, h, ⟨rfl, rfl, rfl⟩, rfl, storedWord_push16 (s := s.fetched n k tt) hm _, rfl⟩

/-! ## The two cases of a condition (rule R290) -/

variable {p : Prop} [Decidable p] {t u : State}

theorem exec_of_ite_pos (h : exec i s = .next (if p then t else u)) (hp : p) : exec i s = .next t := by
  rwa [if_pos hp] at h

theorem exec_of_ite_neg (h : exec i s = .next (if p then t else u)) (hp : ¬p) : exec i s = .next u := by
  rwa [if_neg hp] at h

end

/-! ## The conditional instructions, the condition read before the fetch -/

theorem exec_jpCcNn (cc : Cond) (nn : Word) (s : State) :
    exec (.jpCcNn cc nn) s =
      .next (if condHolds cc s.cpu.f then (s.fetched 3 1 10).setPc nn else s.fetched 3 1 10) := rfl

theorem exec_jrInstr (zero set : Bool) (e : Byte) (s : State) :
    exec (jrInstr zero set e) s =
      .next (if (if zero then flagZ s.cpu.f else flagC s.cpu.f) == set then (s.fetched 2 1 12).jumpRel e
        else s.fetched 2 1 7) := by
  cases set with
  | false =>
    rw [beq_false]
    cases zero <;> rfl
  | true =>
    rw [beq_true]
    cases zero <;> rfl

theorem exec_djnz (e : Byte) (s : State) :
    exec (.djnz e) s =
      .next (if s.cpu.b - 1#8 ≠ 0#8 then ((s.fetched 2 1 13).setB (s.cpu.b - 1#8)).jumpRel e
        else (s.fetched 2 1 8).setB (s.cpu.b - 1#8)) := rfl

theorem exec_callCcNn (cc : Cond) (nn : Word) (s : State) :
    exec (.callCcNn cc nn) s =
      .next (if condHolds cc s.cpu.f then (s.fetched 3 1 17).callTo nn else s.fetched 3 1 10) := by
  rw [show s.fetched 3 1 17 = (s.fetched 3 1 10).tick 7 from rfl, ← State.tick_callTo]
  rfl

theorem exec_retCc (cc : Cond) (s : State) :
    exec (.retCc cc) s =
      .next (if condHolds cc s.cpu.f then (s.fetched 1 1 11).popPc else s.fetched 1 1 5) := rfl

/-- Settles O43: each jump is its fetch and a move of PC, in the case of its condition. -/
theorem jumps : Obligations.Jumps := by
  refine fun s => ⟨fun nn => .of_fetched (n := 3) rfl, fun cc nn => ⟨fun h => ?_, fun h => ?_⟩, fun e => .of_jumpRel rfl,
    fun zero set e => ⟨fun h => ?_, fun h => ?_⟩, .of_fetched (n := 1) rfl, fun xy => ?_, fun e => ⟨fun h => ?_, fun h => ?_⟩⟩
  · exact .of_fetched (exec_of_ite_pos (exec_jpCcNn cc nn s) ((condHolds_iff ..).mpr h))
  · exact .of_untaken (exec_of_ite_neg (exec_jpCcNn cc nn s) (mt (condHolds_iff ..).mp h))
  · exact .of_jumpRel (exec_of_ite_pos (exec_jrInstr zero set e s) (beq_iff_eq.mpr h))
  · exact .of_untaken (exec_of_ite_neg (exec_jrInstr zero set e s) (mt beq_iff_eq.mp h))
  · rw [← (atFetch_fetchedIdx s xy 2 2 8).xy]
    exact .of_setCpu rfl (atFetch_fetchedIdx ..) (took_fetchedIdx ..)
  · have counted : s.cpu.b - 1#8 ≠ 0#8 := by bv_omega
    exact .of_jumpRel (exec_of_ite_pos (exec_djnz e s) counted)
  · have counted : s.cpu.b - 1#8 = 0#8 := by rw [h]; rfl
    rw [← counted]
    exact .of_fetched (exec_of_ite_neg (exec_djnz e s) (not_not.mpr counted))

/-- Settles O44: a call pushes the PC of its fetch; a return takes PC from the stack, and RETI and RETN copy IFF2. -/
theorem callsAndReturns : Obligations.CallsAndReturns := by
  refine ⟨fun s hm => ⟨fun nn => .of_callTo hm rfl, fun cc nn => ⟨fun h => ?_, fun h => ?_⟩, fun y => .of_callTo hm rfl⟩,
    fun s => ⟨.of_popPc (n := 1) rfl, fun cc => ⟨fun h => ?_, fun h => ?_⟩, .of_returnFromInterrupt (n := 2) rfl,
      fun y => .of_returnFromInterrupt (n := 2) rfl⟩⟩
  · exact .of_callTo hm (exec_of_ite_pos (exec_callCcNn cc nn s) ((condHolds_iff ..).mpr h))
  · exact .of_untaken (exec_of_ite_neg (exec_callCcNn cc nn s) (mt (condHolds_iff ..).mp h))
  · exact .of_popPc (exec_of_ite_pos (exec_retCc cc s) ((condHolds_iff ..).mpr h))
  · exact .of_untaken (exec_of_ite_neg (exec_retCc cc s) (mt (condHolds_iff ..).mp h))

end Sys2Proof.Machine
end

section
/-! Blocks: one round of a block instruction, as its step of the pairs and the decision to go round again (rules R320 .. R337). -/

namespace Sys2Proof.Machine

/-! ## Going round again (rule R320) -/

theorem State.repeatIf_eq (u : State) (again : Bool) :
    u.repeatIf again =
      { u with cpu := { u.cpu with pc := if again then u.cpu.pc - 2#16 else u.cpu.pc }
               cursor := { u.cursor with t := u.cursor.t + if again then 5 else 0 } } := by
  cases again <;> rfl

/-- A round of two bytes stays on them, 5 T-states longer, or goes to the byte behind. -/
theorem Took.repeatIf {s u : State} {k : Nat} (h : Took s u 2 k 16) (again : Bool) :
    TookTo s (u.repeatIf again) (if again then s.cpu.pc else s.cpu.pc + 2#16) k (if again then 21 else 16) := by
  obtain ⟨pc, r, cursor⟩ := h
  cases again with
  | false => exact ⟨pc, r, cursor⟩
  | true =>
    have back : (u.repeatIf true).cpu.pc = s.cpu.pc := by simp [State.repeatIf_true, pc]
    have longer : (u.repeatIf true).cursor = { u.cursor with t := u.cursor.t + 5 } := rfl
    exact ⟨back, r, by rw [longer, cursor]; rfl⟩

/-! ## The flags of a round (rules R321 .. R328, R337) -/

theorem bit_blockXY (n : Byte) (i : Nat) :
    bit (blockXY n) i = (bit n i && bit maskX i || bit n 1 && bit maskY i) := by
  rw [blockXY, bit_or, bit_and, bit_maskIf]

theorem ldFlags_flags (a v f : Byte) (bc : Word) :
    let g := ldFlags a v bc f
    flagS g = flagS f ∧ flagZ g = flagZ f ∧ flagC g = flagC f ∧ flagH g = false ∧ flagN g = false ∧
      flagP g = (bc != 0#16) ∧ flagX g = bit (a + v) 3 ∧ flagY g = bit (a + v) 1 := by
  simp only [flagS, flagZ, flagY, flagX, flagP, flagH, flagN, flagC, ldFlags, bit_or, bit_and, bit_maskIf, bit_blockXY]
  simp [bit, maskS, maskZ, maskC, maskP, maskX, maskY]

/-- H is the borrow out of the low digit; X and Y come from the difference less that borrow. -/
theorem cpFlags_flags (a v f : Byte) (bc : Word) :
    let g := cpFlags a v bc f
    let borrow := decide (a.toNat % 16 < v.toNat % 16)
    let n := a - v - maskIf borrow 1#8
    flagC g = flagC f ∧ flagN g = true ∧ flagZ g = decide (a = v) ∧ flagS g = bit (a - v) 7 ∧ flagH g = borrow ∧
      flagP g = (bc != 0#16) ∧ flagX g = bit n 3 ∧ flagY g = bit n 1 := by
  have equal : (a - v == 0#8) = decide (a = v) := by
    rw [Bool.eq_iff_iff, beq_iff_eq, decide_eq_true_iff]
    exact sub_eq_zero
  simp only [flagS, flagZ, flagY, flagX, flagP, flagH, flagN, flagC, cpFlags, equal, toNat_low_nibble, bit_or, bit_and,
    bit_maskIf, bit_blockXY]
  simp [bit, maskS, maskZ, maskC, maskP, maskX, maskY, maskN, maskH]

theorem ioFlags_flags (b f free : Byte) :
    let g := ioFlags b f free
    flagZ g = (b == 0#8) ∧ flagN g = true ∧ flagC g = flagC f := by
  simp only [flagZ, flagN, flagC, ioFlags, bit_or, bit_and, bit_maskIf]
  simp [bit, maskZ, maskN, maskC, maskFree]

/-! ## Block transfer (rules R321 .. R324) -/

theorem exec_blockLdInstr (s : State) (ascending repeating : Bool) :
    exec (blockLdInstr ascending repeating) s =
      .next ((s.blockLd (blockDelta ascending)).repeatIf (repeating && decide (s.cpu.bc ≠ 1#16))) := by
  have counted : ((s.blockLd (blockDelta ascending)).cpu.bc != 0#16) = decide (s.cpu.bc ≠ 1#16) := by
    rw [← counted_word, State.blockLd_eq, Cpu.bc, mkWord_hiByte_loByte]
  rw [← counted]
  cases ascending <;> cases repeating <;> rfl

/-- Settles O45: the round is `blockLd`, and repeating moves PC and the time alone. -/
theorem blockTransfer : Obligations.BlockTransfer := by
  intro s ascending repeating hm v again
  refine ⟨_, exec_blockLdInstr s ascending repeating, Took.repeatIf ?_ _, ?_⟩
  · rw [State.blockLd_eq]
    exact ⟨rfl, rfl, rfl⟩
  · have flags := ldFlags_flags s.cpu.a v s.cpu.f (s.cpu.bc - 1#16)
    rw [counted_word] at flags
    obtain ⟨sign, zero, carry, half, negative, parity, x, y⟩ := flags
    rw [State.repeatIf_eq, State.blockLd_eq, add_blockDelta, add_blockDelta]
    exact ⟨rfl, mkWord_hiByte_loByte _, mkWord_hiByte_loByte _, mkWord_hiByte_loByte _, storedByte_write8 hm _ _, rfl, sign,
      zero, carry, half, negative, by rw [parity, decide_eq_true_iff], x, y⟩

/-! ## Block search (rules R325 .. R328) -/

theorem exec_blockCpInstr (s : State) (ascending repeating : Bool) :
    exec (blockCpInstr ascending repeating) s =
      .next ((s.blockCp (blockDelta ascending)).repeatIf
        (repeating && decide (s.cpu.bc ≠ 1#16) && decide (s.cpu.a ≠ s.read8 s.cpu.hl))) := by
  have goesOn : (s.blockCp (blockDelta ascending)).searchGoesOn =
      (decide (s.cpu.bc ≠ 1#16) && decide (s.cpu.a ≠ s.read8 s.cpu.hl)) := by
    obtain ⟨-, -, zero, -⟩ := cpFlags_flags s.cpu.a (s.read8 s.cpu.hl) s.cpu.f (s.cpu.bc - 1#16)
    rw [State.searchGoesOn, State.blockCp_eq, Cpu.bc, mkWord_hiByte_loByte, counted_word, zero, ← decide_not]
  rw [Bool.and_assoc, ← goesOn]
  cases ascending <;> cases repeating <;> rfl

/-- Settles O46: the round is `blockCp`, and it goes on by what is left of BC and by the Z it has set. -/
theorem blockSearch : Obligations.BlockSearch := by
  intro s ascending repeating v again half n
  refine ⟨_, exec_blockCpInstr s ascending repeating, Took.repeatIf ?_ _, ?_⟩
  · rw [State.blockCp_eq]
    exact ⟨rfl, rfl, rfl⟩
  · have flags := cpFlags_flags s.cpu.a v s.cpu.f (s.cpu.bc - 1#16)
    rw [counted_word] at flags
    obtain ⟨carry, negative, zero, sign, borrow, parity, x, y⟩ := flags
    have hn : s.cpu.a - v - maskIf (decide (s.cpu.a.toNat % 16 < v.toNat % 16)) 1#8 = n := by
      by_cases h : s.cpu.a.toNat % 16 < v.toNat % 16 <;> simp [n, half, h, maskIf]
    rw [hn] at x y
    rw [State.repeatIf_eq, State.blockCp_eq, add_blockDelta]
    refine ⟨rfl, mkWord_hiByte_loByte _, mkWord_hiByte_loByte _, fun _ => rfl, rfl, carry, negative, ?_, sign, ?_, ?_, x, y⟩
    · rw [zero, decide_eq_true_iff]
    · rw [borrow, decide_eq_true_iff]
      simp [half]
    · rw [parity, decide_eq_true_iff]

/-! ## Block input and output (rules R329 .. R337) -/

theorem exec_blockInInstr (s : State) (ascending repeating : Bool) :
    exec (blockInInstr ascending repeating) s =
      .next ((s.blockIn (blockDelta ascending)).repeatIf (repeating && decide (s.cpu.b ≠ 1#8))) := by
  have goesOn : (s.blockIn (blockDelta ascending)).countGoesOn = decide (s.cpu.b ≠ 1#8) := by
    rw [State.countGoesOn, State.blockIn_eq, counted_byte]
  rw [← goesOn]
  cases ascending <;> cases repeating <;> rfl

theorem exec_blockOutInstr (s : State) (ascending repeating : Bool) :
    exec (blockOutInstr ascending repeating) s =
      .next ((s.blockOut (blockDelta ascending)).repeatIf (repeating && decide (s.cpu.b ≠ 1#8))) := by
  have goesOn : (s.blockOut (blockDelta ascending)).countGoesOn = decide (s.cpu.b ≠ 1#8) := by
    rw [State.countGoesOn, State.blockOut_eq, counted_byte]
  rw [← goesOn]
  cases ascending <;> cases repeating <;> rfl

/-- Settles O47: the rounds are `blockIn` and `blockOut`, which differ in the byte's way alone. -/
theorem blockInputOutput : Obligations.BlockInputOutput := by
  intro s input ascending repeating hm again
  obtain ⟨zero, negative, carry⟩ := ioFlags_flags (s.cpu.b - 1#8) s.cpu.f (Config.freeIoFlags s.freeDraws)
  have counted : (s.cpu.b - 1#8 == 0#8) = true ↔ s.cpu.b = 1#8 := by
    rw [beq_iff_eq]
    constructor <;> intro h <;> bv_omega
  rw [← zero] at counted
  cases input with
  | true =>
    refine ⟨_, exec_blockInInstr s ascending repeating, Took.repeatIf ?_ _, ?_⟩
    · rw [State.blockIn_eq]
      exact ⟨rfl, rfl, rfl⟩
    · rw [State.repeatIf_eq, State.blockIn_eq, add_blockDelta]
      exact ⟨rfl, mkWord_hiByte_loByte _, ⟨storedByte_write8 hm _ _, rfl⟩, rfl, counted, negative, carry⟩
  | false =>
    refine ⟨_, exec_blockOutInstr s ascending repeating, Took.repeatIf ?_ _, ?_⟩
    · rw [State.blockOut_eq]
      exact ⟨rfl, rfl, rfl⟩
    · have written := portWrote_ioWrite s ((s.fetched 2 2 12).setB (s.cpu.b - 1#8)) (mkWord (s.cpu.b - 1#8) s.cpu.c)
        (s.read8 s.cpu.hl) 12 rfl rfl rfl
      rw [State.repeatIf_eq, State.blockOut_eq, add_blockDelta]
      exact ⟨rfl, mkWord_hiByte_loByte _, ⟨fun _ => rfl, written⟩, rfl, counted, negative, carry⟩

end Sys2Proof.Machine
end

section
/-! Copying: a whole LDIR, by induction over its rounds, each of them a step of the machine (rules R320, R322, R540). -/

namespace Sys2Proof.Machine

/-! ## The rest of an iteration with interrupts off (rules R540 .. R545) -/

theorem State.frameBoundary_of_disabled {s : State} (h : s.cpu.iff1 = false) :
    s.frameBoundary =
      { s with frameAcc := s.frameBoundary.frameAcc, framesPresented := s.frameBoundary.framesPresented } := by
  unfold State.frameBoundary State.frameInterrupt
  split
  · simp only [h, Bool.false_eq_true, if_false]
  · rfl

/-- With interrupts off the CPU, memory, the schedule and the latches stay, and the clock takes the step's T-states. -/
theorem State.finishIteration_of_disabled {s : State} (h : s.cpu.iff1 = false) :
    s.finishIteration =
      { s with
        clock := s.clock + s.cursor.t, frameAcc := s.finishIteration.frameAcc,
        framesPresented := s.finishIteration.framesPresented, ula := s.finishIteration.ula,
        beeper := s.finishIteration.beeper, recorder := s.finishIteration.recorder, tape := s.finishIteration.tape } := by
  have hcpu : (s.advance s.cursor.t).updateDevices.cpu = s.cpu := by
    rw [State.updateDevices_eq]
    rfl
  unfold State.finishIteration
  rw [State.frameBoundary_of_disabled (by rw [hcpu, h]), State.updateDevices_eq]
  rfl

/-! ## One round (rule R322) -/

/-- LDIR stands at PC of a machine that runs, awake, with nothing queued and no interrupt to come. -/
structure State.AtLdir (s : State) : Prop where
  running : s.running
  schedule : s.schedule = []
  wf : s.mem.wf = true
  halted : s.cpu.halted = false
  iff1 : s.cpu.iff1 = false
  eiDelay : s.cpu.eiDelay = false
  first : s.read8 s.cpu.pc = 0xED#8
  second : s.read8 (s.cpu.pc + 1#16) = 0xB0#8

/-- What a round of LDIR makes of `s`: it stays on its bytes unless it is the last one. -/
structure LdirRound (s t : State) : Prop where
  cpu : t.cpu = { s.cpu with b := t.cpu.b, c := t.cpu.c, d := t.cpu.d, e := t.cpu.e, h := t.cpu.h, l := t.cpu.l,
                             f := t.cpu.f, r := incRTimes 2 s.cpu.r,
                             pc := if s.cpu.bc = 1#16 then s.cpu.pc + 2#16 else s.cpu.pc }
  bc : t.cpu.bc = s.cpu.bc - 1#16
  de : t.cpu.de = s.cpu.de + 1#16
  hl : t.cpu.hl = s.cpu.hl + 1#16
  stored : StoredByte s t s.cpu.de (s.read8 s.cpu.hl)
  parity : flagP t.cpu.f = true ↔ s.cpu.bc ≠ 1#16
  clock : t.clock = s.clock + if s.cpu.bc = 1#16 then 16 else 21
  running : t.running
  schedule : t.schedule = []
  wf : t.mem.wf = true

theorem State.AtLdir.fetchInstr {s : State} (h : s.AtLdir) : s.fetchInstr = some .ldir := by
  refine fetchInstr_of_encode rfl rfl (by decide) fun k hk => ?_
  obtain rfl | rfl : k = 0 ∨ k = 1 := by
    have : k < 2 := hk
    omega
  · rw [BitVec.add_zero, h.first]
    rfl
  · rw [h.second]
    rfl

/-- A step at LDIR is one round of the block transfer, and the rest of the iteration adds its T-states to the clock. -/
theorem State.AtLdir.step_round {s : State} (h : s.AtLdir) : ∃ t, step s = .next t ∧ LdirRound s t := by
  let s1 := s.setCursor { tBase := s.clock, t := 0, start := s.cpu.pc, lastXy := none }
  have begun : s.beginStep = s1 := by simp [State.beginStep, h.eiDelay, s1, State.setCursor]
  obtain ⟨u, hu, ⟨pc, r, cursor⟩, cpu, bc, de, hl, stored, outside, -, -, -, -, -, parity, -⟩ :=
    blockTransfer s1 true true h.wf
  have latch : u.fault = none := by
    rw [outside]
    exact h.running.2
  have iff1 : u.cpu.iff1 = false := by
    rw [cpu]
    exact h.iff1
  have ran : step s = .next u.finishIteration := by
    rw [step_eq_runAs h.running h.schedule h.halted h.fetchInstr, State.runAs, begun, show exec .ldir s1 = _ from hu]
    simp [latch]
  have again : ∀ {α : Type} (x y : α), (if true && decide (s1.cpu.bc ≠ 1#16) then x else y) =
      if s.cpu.bc = 1#16 then y else x := fun x y => by
    by_cases last : s.cpu.bc = 1#16 <;> simp [s1, last]
  rw [again] at pc cursor
  refine ⟨_, ran, ?_⟩
  rw [State.finishIteration_of_disabled iff1]
  constructor
  case cpu =>
    rw [pc, r] at cpu
    exact cpu
  case clock =>
    rw [cursor, outside]
    simp [s1]
  case running =>
    rw [outside]
    exact h.running
  case schedule =>
    rw [outside]
    exact h.schedule
  case wf => exact (effect_of_exec hu).wf h.wf
  case bc => exact bc
  case de => exact de
  case hl => exact hl
  case stored => exact stored
  case parity => exact parity

/-! ## All rounds -/

/-- `x` is one of the `n` addresses from `a` on. -/
def InBlock (a : Word) (n : Nat) (x : Word) : Prop := ∃ k, k < n ∧ x = a + BitVec.ofNat 16 k

theorem add_one_add_ofNat (a : Word) (k : Nat) : a + 1#16 + BitVec.ofNat 16 k = a + BitVec.ofNat 16 (k + 1) := by
  rw [BitVec.add_assoc, Nat.add_comm k 1, BitVec.ofNat_add]

theorem InBlock.succ {a x : Word} {n : Nat} (h : InBlock (a + 1#16) n x) : InBlock a (n + 1) x := by
  obtain ⟨k, hk, rfl⟩ := h
  exact ⟨k + 1, by omega, add_one_add_ofNat a k⟩

theorem inBlock_first (a : Word) (n : Nat) : InBlock a (n + 1) a := ⟨0, by omega, (BitVec.add_zero a).symm⟩

/-- A block that does not wrap to its first address: that is not met again behind it. -/
theorem not_inBlock_next {a : Word} {n : Nat} (h : n + 1 < 65536) : ¬InBlock (a + 1#16) n a := by
  rintro ⟨k, hk, e⟩
  rw [add_one_add_ofNat] at e
  have zero := congrArg BitVec.toNat (left_eq_add.mp e)
  rw [BitVec.toNat_ofNat, Nat.mod_eq_of_lt (by omega)] at zero
  exact k.succ_ne_zero zero

/-- LDIR has `n` bytes to copy to RAM, off the instruction's own bytes and off the source. -/
structure State.CopyAhead (s : State) (n : Nat) : Prop where
  at_ : s.AtLdir
  small : n < 65536
  bc : s.cpu.bc = BitVec.ofNat 16 n
  ram : ∀ x, InBlock s.cpu.de n x → Config.romSize ≤ x.toNat
  first : ¬InBlock s.cpu.de n s.cpu.pc
  second : ¬InBlock s.cpu.de n (s.cpu.pc + 1#16)
  source : ∀ x, InBlock s.cpu.hl n x → ¬InBlock s.cpu.de n x

/-- LDIR has copied `n` bytes. -/
structure Copied (s t : State) (n : Nat) : Prop where
  target : ∀ k, k < n → t.read8 (s.cpu.de + BitVec.ofNat 16 k) = s.read8 (s.cpu.hl + BitVec.ofNat 16 k)
  rest : ∀ x, ¬InBlock s.cpu.de n x → t.read8 x = s.read8 x
  cpu : t.cpu = { s.cpu with b := t.cpu.b, c := t.cpu.c, d := t.cpu.d, e := t.cpu.e, h := t.cpu.h, l := t.cpu.l,
                             f := t.cpu.f, r := incRTimes (2 * n) s.cpu.r, pc := s.cpu.pc + 2#16 }
  bc : t.cpu.bc = 0#16
  de : t.cpu.de = s.cpu.de + BitVec.ofNat 16 n
  hl : t.cpu.hl = s.cpu.hl + BitVec.ofNat 16 n
  parity : flagP t.cpu.f = false
  clock : t.clock = s.clock + 21 * (n - 1) + 16

section
variable {s t u : State} {n : Nat}

theorem State.CopyAhead.bc_eq_one_iff (h : s.CopyAhead (n + 1)) : s.cpu.bc = 1#16 ↔ n = 0 := by
  rw [h.bc, ← BitVec.toNat_inj, BitVec.toNat_ofNat, Nat.mod_eq_of_lt h.small]
  exact Nat.succ_inj

/-- A byte off the target reads as before a round. -/
theorem LdirRound.read8_of_not_inBlock (h : LdirRound s t) {x : Word} (hx : ¬InBlock s.cpu.de (n + 1) x) :
    t.read8 x = s.read8 x := by
  have hne : x ≠ s.cpu.de := fun e => hx (e ▸ inBlock_first ..)
  simp [h.stored x, hne]

/-- A round but the last leaves one byte less to copy. -/
theorem State.CopyAhead.next (h : s.CopyAhead (n + 1)) (hn : n ≠ 0) (r : LdirRound s t) : t.CopyAhead n := by
  have hpc : t.cpu.pc = s.cpu.pc := by
    rw [r.cpu]
    exact if_neg (mt h.bc_eq_one_iff.mp hn)
  have shorter : ∀ {x}, InBlock t.cpu.de n x → InBlock s.cpu.de (n + 1) x := fun hx => (r.de ▸ hx).succ
  have same : ∀ {x}, ¬InBlock s.cpu.de (n + 1) x → t.read8 x = s.read8 x := r.read8_of_not_inBlock
  refine
    { at_ :=
        { running := r.running
          schedule := r.schedule
          wf := r.wf
          halted := by rw [r.cpu]; exact h.at_.halted
          iff1 := by rw [r.cpu]; exact h.at_.iff1
          eiDelay := by rw [r.cpu]; exact h.at_.eiDelay
          first := by rw [hpc, same h.first, h.at_.first]
          second := by rw [hpc, same h.second, h.at_.second] }
      small := Nat.lt_of_succ_lt h.small
      bc := ?_
      ram := fun x hx => h.ram x (shorter hx)
      first := by rw [hpc]; exact mt shorter h.first
      second := by rw [hpc]; exact mt shorter h.second
      source := fun x hx => mt shorter (h.source x (r.hl ▸ hx).succ) }
  rw [r.bc, h.bc, BitVec.ofNat_add, BitVec.add_sub_cancel]

theorem LdirRound.copied_last (h : s.CopyAhead 1) (r : LdirRound s t) : Copied s t 1 := by
  have last : s.cpu.bc = 1#16 := h.bc
  exact {
    target := fun k hk => by
      obtain rfl : k = 0 := by omega
      simp [r.stored s.cpu.de, h.ram _ (inBlock_first ..)]
    rest := fun x => r.read8_of_not_inBlock
    cpu := by
      have cpu := r.cpu
      rwa [if_pos last] at cpu
    bc := by rw [r.bc, last]; rfl
    de := r.de
    hl := r.hl
    parity := by simpa [last] using r.parity
    clock := by rw [r.clock, if_pos last] }

theorem LdirRound.copied_more (h : s.CopyAhead (n + 1)) (hn : n ≠ 0) (r : LdirRound s t) (c : Copied t u n) :
    Copied s u (n + 1) := by
  have more : ¬s.cpu.bc = 1#16 := mt h.bc_eq_one_iff.mp hn
  have counted : incRTimes (2 * (n + 1)) s.cpu.r = incRTimes (2 * n) (incRTimes 2 s.cpu.r) := by
    rw [Nat.mul_succ, Nat.add_comm, incRTimes_add]
  exact {
    target := fun k hk => by
      cases k with
      | zero =>
        have copied : ¬InBlock t.cpu.de n s.cpu.de := by
          rw [r.de]
          exact not_inBlock_next h.small
        simp [c.rest _ copied, r.stored s.cpu.de, h.ram _ (inBlock_first ..)]
      | succ k =>
        have source : InBlock s.cpu.hl (n + 1) (s.cpu.hl + BitVec.ofNat 16 (k + 1)) := ⟨k + 1, hk, rfl⟩
        rw [← add_one_add_ofNat, ← r.de, c.target k (by omega), r.hl, add_one_add_ofNat,
          r.read8_of_not_inBlock (h.source _ source)]
    rest := fun x hx => by
      have hx' : ¬InBlock t.cpu.de n x := fun hin => hx (r.de ▸ hin).succ
      rw [c.rest x hx', r.read8_of_not_inBlock hx]
    cpu := by
      have hcpu := c.cpu
      rw [r.cpu, if_neg more] at hcpu
      rw [counted]
      exact hcpu
    bc := c.bc
    de := by rw [c.de, r.de, add_one_add_ofNat]
    hl := by rw [c.hl, r.hl, add_one_add_ofNat]
    parity := c.parity
    clock := by
      rw [c.clock, r.clock, if_neg more]
      omega }

/-- As many steps as there are bytes copy them. -/
theorem State.CopyAhead.copies (h : s.CopyAhead (n + 1)) : ∃ t, stepTimes (n + 1) s = some t ∧ Copied s t (n + 1) := by
  induction n generalizing s with
  | zero =>
    obtain ⟨t, ht, r⟩ := h.at_.step_round
    exact ⟨t, by simp [stepTimes, ht], r.copied_last h⟩
  | succ n ih =>
    obtain ⟨t, ht, r⟩ := h.at_.step_round
    obtain ⟨u, hu, c⟩ := ih (h.next n.succ_ne_zero r)
    refine ⟨u, ?_, r.copied_more h n.succ_ne_zero c⟩
    rw [stepTimes, ht]
    exact hu

end

/-- Settles O48: by induction, each step a round that leaves one byte less. -/
theorem ldirCopies : Obligations.LdirCopies := by
  intro s n hrun hsched hwf hhalted hiff hei hfirst hsecond hpos hsmall hbc hram hcode hsource
  obtain ⟨m, rfl⟩ : ∃ m, n = m + 1 := ⟨n - 1, by omega⟩
  have ahead : s.CopyAhead (m + 1) := {
    at_ := ⟨hrun, hsched, hwf, hhalted, hiff, hei, hfirst, hsecond⟩
    small := hsmall
    bc := hbc
    ram := by
      rintro _ ⟨k, hk, rfl⟩
      exact hram k hk
    first := fun ⟨k, hk, e⟩ => (hcode k hk).1 e.symm
    second := fun ⟨k, hk, e⟩ => (hcode k hk).2 e.symm
    source := by
      rintro _ ⟨k, hk, rfl⟩ ⟨j, hj, e⟩
      exact hsource j k hj hk e.symm }
  obtain ⟨t, ht, c⟩ := ahead.copies
  have hb : t.cpu.b = 0#8 := (hiByte_mkWord t.cpu.b t.cpu.c).symm.trans (congrArg hiByte c.bc)
  have hc : t.cpu.c = 0#8 := (loByte_mkWord t.cpu.b t.cpu.c).symm.trans (congrArg loByte c.bc)
  have cpu := c.cpu
  rw [hb, hc] at cpu
  exact ⟨t, ht, c.target, fun x hx => c.rest x fun ⟨k, hk, e⟩ => hx k hk e, cpu, c.de, c.hl, c.parity, c.clock⟩

end Sys2Proof.Machine
end

section
/-! Ports: the port reads, the input instructions, and the host's key presses (rules R350 .. R352, R400 .. R405, R546). -/

namespace Sys2Proof.Machine

/-! ## Port reads (rules R400, R402, R403) -/

theorem State.ioRead_of_odd (s : State) {port : Word} (h : port.toNat % 2 = 1) : s.ioRead port = 0xFF#8 := by
  simp [State.ioRead, BitVec.getLsbD, h]

theorem State.ioRead_of_even (s : State) {port : Word} (h : port.toNat % 2 = 0) : s.ioRead port = s.ulaRead port := by
  simp [State.ioRead, BitVec.getLsbD, h]

theorem bit_columns (j : Nat) : bit 0x1F#8 j = decide (j < 5) := Nat.testBit_two_pow_sub_one 5 j

/-- The columns left over when the row `i` is read too, if the port selects it. -/
def readRow (keys : Vector Byte 8) (port : Word) (k : Byte) (i : Fin 8) : Byte :=
  if port.getLsbD (8 + i.val) then k else k &&& (keys[i] &&& 0x1F#8)

theorem keyBits_eq_foldl (keys : Vector Byte 8) (port : Word) :
    keyBits keys port = (List.finRange 8).foldl (readRow keys port) 0x1F#8 := rfl

theorem bit_readRow (keys : Vector Byte 8) (port : Word) (k : Byte) (i : Fin 8) (j : Nat) :
    bit (readRow keys port k i) j = true ↔
      bit k j = true ∧ (port.getLsbD (8 + i.val) = false → bit keys[i] j = true ∧ j < 5) := by
  unfold readRow
  split
  next unselected => simp [unselected]
  next selected => simp [selected, bit_and, bit_columns]

/-- Reading a list of rows, a column stays up that is up in each of them that the port selects. -/
theorem bit_foldl_readRow (keys : Vector Byte 8) (port : Word) (rows : List (Fin 8)) (k : Byte) (j : Nat) :
    bit (rows.foldl (readRow keys port) k) j = true ↔
      bit k j = true ∧ ∀ i ∈ rows, port.getLsbD (8 + i.val) = false → bit keys[i] j = true ∧ j < 5 := by
  induction rows generalizing k with
  | nil => simp
  | cons i rows ih => rw [List.foldl_cons, ih, bit_readRow, List.forall_mem_cons, and_assoc]

theorem bit_keyBits (keys : Vector Byte 8) (port : Word) (j : Nat) :
    bit (keyBits keys port) j = true ↔
      j < 5 ∧ ∀ i : Fin 8, port.getLsbD (8 + i.val) = false → bit keys[i] j = true := by
  rw [keyBits_eq_foldl, bit_foldl_readRow, bit_columns, decide_eq_true_eq]
  refine and_congr_right fun hj => ?_
  simp [hj]

theorem State.bit_ulaRead (s : State) (port : Word) (j : Nat) :
    bit (s.ulaRead port) j =
      (bit 0xA0#8 j || (if s.tape.source.isSome then s.tape.earLevel else true) && bit 0x40#8 j ||
        bit (keyBits s.keys port) j) := by
  rw [State.ulaRead, bit_or, bit_or, bit_maskIf]
  rfl

theorem State.bit_ulaRead_column (s : State) (port : Word) {j : Nat} (hj : j < 5) :
    bit (s.ulaRead port) j = true ↔ ∀ i : Fin 8, port.getLsbD (8 + i.val) = false → bit s.keys[i] j = true := by
  obtain ⟨high, ear⟩ : bit 0xA0#8 j = false ∧ bit 0x40#8 j = false := by
    revert j
    decide
  rw [bit_ulaRead, high, ear, Bool.and_false, Bool.false_or, Bool.false_or, bit_keyBits]
  exact and_iff_right hj

theorem State.bit_ulaRead_ear (s : State) (port : Word) :
    bit (s.ulaRead port) 6 = if s.tape.source.isSome then s.tape.earLevel else true := by
  have noColumn : bit (keyBits s.keys port) 6 = false := by
    rw [← Bool.not_eq_true, bit_keyBits]
    omega
  rw [bit_ulaRead, noColumn, Bool.or_false]
  exact Bool.and_true _

/-! ## Input instructions (rules R350 .. R352) -/

/-- Input from port BC to a register or, `IN F,(C)`, to none. -/
def inCInstr : Option Reg8 → Instr
  | some r => .inRC r
  | none => .inFC

/-- After the fetch, one write of the register, if any, and of F. -/
theorem computes_inCInstr (s : State) (dest : Option Reg8) :
    Computes (inCInstr dest) s
      { s.cpu.withReg dest (s.ioRead s.cpu.bc) with f := inFlags (s.ioRead s.cpu.bc) s.cpu.f } 2 2 12 := by
  refine .of_setCpu (u := s.fetched 2 2 12) ?_ (atFetch_fetched ..) (took_fetched ..)
  cases dest with
  | none => rfl
  | some r => cases r <;> rfl

/-! ## Keys (rule R405) -/

/-- The row of the key takes the byte with the column's bit cleared or set; every other row stays. -/
theorem State.keys_setKey (s : State) (row : Fin 8) (column : Fin 5) (pressed : Bool) (i : Fin 8) :
    (s.setKey row column pressed).keys[i] =
      if i = row then
        if pressed then resBit (column.castLE (by decide)) s.keys[i] else setBit (column.castLE (by decide)) s.keys[i]
      else s.keys[i] := by
  by_cases h : i = row
  · subst h
    simp [State.setKey, resBit, setBit, bitMask]
  · have hne : row.val ≠ i.val := fun e => h (Fin.ext e.symm)
    simp [State.setKey, h, hne]

theorem State.bit_setKey (s : State) (row : Fin 8) (column : Fin 5) (pressed : Bool) (i : Fin 8) {j : Nat} (hj : j < 8) :
    bit (s.setKey row column pressed).keys[i] j =
      if i = row ∧ j = column.val then !pressed else bit s.keys[i] j := by
  rw [State.keys_setKey]
  by_cases h : i = row
  · cases pressed <;> simp [h, bit_setBit, bit_resBit, hj]
  · simp [h]

/-- Settles O49: a port read bit by bit, the input instructions as writes of registers after their fetch, and a key as one
bit of its row. -/
theorem portInput : Obligations.PortInput := by
  refine ⟨fun s port => ⟨s.ioRead_of_odd, fun even => ?_⟩, fun s n => ?_, fun s dest => ?_,
    fun s row column pressed running => ?_⟩
  · rw [s.ioRead_of_even even]
    refine ⟨?_, ?_, s.bit_ulaRead_ear port, fun j => s.bit_ulaRead_column port⟩
    · rw [s.bit_ulaRead]
      rfl
    · rw [s.bit_ulaRead]
      rfl
  · exact .of_setReg8 (r := .a) rfl (atFetch_fetched ..) (took_fetched ..)
  · intro v
    obtain ⟨t, ht, took, cpu, bytes, outside⟩ := computes_inCInstr s dest
    have hf : t.cpu.f = inFlags v s.cpu.f := congrArg Cpu.f cpu
    rw [← hf] at cpu
    refine ⟨t, ht, took, cpu, bytes, outside, ?_⟩
    rw [hf]
    exact inFlags_flags v s.cpu.f
  · exact ⟨_, (requestDone_iff running).mpr rfl, fun i j => s.bit_setKey row column pressed i⟩

end Sys2Proof.Machine
end

section
/-! Beeper: the filter's bound, one sample, a push, and the audio consumer's action (rules R431 .. R440, R444, R445). -/

namespace Sys2Proof.Machine

/-! ## Truncation and clamping (rule R439) -/

/-- Truncating toward zero is rounding down what is not negative and up the rest. -/
theorem tdiv_eq_floor_or_ceil (y : Rat) : y.num.tdiv y.den = if 0 ≤ y then ⌊y⌋ else ⌈y⌉ := by
  split
  next h => rw [Int.tdiv_eq_ediv_of_nonneg (Rat.num_nonneg.mpr h), Rat.floor_def']
  next h =>
    have hneg : 0 ≤ (-y).num := Rat.num_nonneg.mpr (by linarith)
    have hceil : ⌈y⌉ = -⌊-y⌋ := by rw [Int.floor_neg, neg_neg]
    rw [hceil, Rat.floor_def', ← Int.tdiv_eq_ediv_of_nonneg hneg, Rat.neg_num, Rat.neg_den, Int.neg_tdiv, neg_neg]

theorem clamp16_eq (y : Rat) : clamp16 y = max (-32768) (min 32767 (if 0 ≤ y then ⌊y⌋ else ⌈y⌉)) := by
  rw [clamp16, tdiv_eq_floor_or_ceil]

theorem clamp16_bound {y : Rat} (h : -4000 ≤ y ∧ y ≤ 4000) : -4000 ≤ clamp16 y ∧ clamp16 y ≤ 4000 := by
  have hfloor : ⌊y⌋ ≤ 4000 := Int.floor_le_iff.mpr (by push_cast; linarith)
  have hceil : -4000 ≤ ⌈y⌉ := Int.le_ceil_iff.mpr (by push_cast; linarith)
  rw [clamp16_eq]
  split
  next hpos => have : 0 ≤ ⌊y⌋ := Int.floor_nonneg.mpr hpos; omega
  next hneg => have : ⌈y⌉ ≤ 0 := Int.ceil_le.mpr (by push_cast; linarith); omega

/-! ## One sample (rules R432, R437 .. R439) -/

theorem rawLevel_eq (l : Bool) : rawLevel l = if l then 2000 else -2000 := rfl

/-- What the filter puts out at the level `l`, before it is cut. -/
def Beeper.filtered (b : Beeper) (l : Bool) : Rat := (rawLevel l : Rat) - (b.xPrev : Rat) + Config.alpha * b.yPrev

/-- How long the ring has been empty, this sample counted. -/
def Beeper.idleNow (b : Beeper) : Nat := if b.ring.isEmpty then b.idleSamples + 1 else 0

/-- The events a sample takes off the ring are those at its head up to the limit, and the last of them gives the level. -/
theorem popUntil_eq (rate limit : Nat) : ∀ (es : List BeeperEvent) (lvl : Bool),
    popUntil rate limit es lvl =
      (es.dropWhile (fun e => decide (e.tState * rate ≤ limit)),
        match (es.takeWhile (fun e => decide (e.tState * rate ≤ limit))).getLast? with
        | some e => e.level
        | none => lvl)
  | [], _ => rfl
  | e :: rest, lvl => by
    rw [popUntil]
    by_cases h : e.tState * rate ≤ limit
    · rw [if_pos h, popUntil_eq rate limit rest e.level]
      simp only [List.dropWhile_cons, List.takeWhile_cons, h, decide_true, if_true, List.getLast?_cons]
      cases (rest.takeWhile _).getLast? <;> rfl
    · simp [h]

/-- One sample is silence with the filter at rest, or the filter's output at the level the events due leave. -/
theorem Beeper.nextSample_eq (rate : Nat) (b : Beeper) :
    b.nextSample rate =
      let popped := popUntil rate (b.position + Config.cpuHz) b.ring b.outLevel
      (if Config.idleSilenceSamples ≤ b.idleNow then 0 else clamp16 (b.filtered popped.2),
        { b with
          ring := popped.1
          position := b.position + Config.cpuHz
          outLevel := popped.2
          xPrev := rawLevel popped.2
          yPrev := if Config.idleSilenceSamples ≤ b.idleNow then 0 else b.filtered popped.2
          idleSamples := b.idleNow }) := by
  unfold Beeper.nextSample
  change (if Config.idleSilenceSamples ≤ b.idleNow then _ else _) = _
  dsimp only
  split <;> rfl

/-! ## A push (rules R433, R435, R436) -/

theorem Beeper.isRewind_iff (rate : Nat) (b : Beeper) (t : Nat) :
    b.isRewind rate t = true ↔ t * rate + 8 * 3500000 < b.position := decide_eq_true_iff

theorem Beeper.push_within {rate t : Nat} {b : Beeper} (h : b.position ≤ t * rate + 8 * 3500000) (level : Bool) :
    b.push rate t level =
      { b with
        ring := (if b.ring.length = 8192 then b.ring.tail else b.ring) ++ [{ tState := t, level := level }]
        writerCursor := max b.writerCursor t } := by
  have hr : ¬ b.isRewind rate t = true := by rw [b.isRewind_iff]; omega
  simp [Beeper.push, hr, Beeper.append, Config.beeperRingCap]

theorem Beeper.push_behind {rate t : Nat} {b : Beeper} (h : t * rate + 8 * 3500000 < b.position) (level : Bool) :
    b.push rate t level =
      { ring := [{ tState := t, level := level }], writerCursor := t, position := t * rate, outLevel := b.outLevel,
        xPrev := rawLevel b.outLevel, yPrev := 0, idleSamples := 0 } := by
  have hr : b.isRewind rate t = true := (b.isRewind_iff rate t).mpr h
  simp [Beeper.push, hr, Beeper.append, Config.beeperRingCap]

/-! ## The filter's bound (rules R437 .. R440, R445) -/

/-- The filter at rest on a level. -/
theorem Beeper.filterOk_rest (b : Beeper) (l : Bool) : ({ b with xPrev := rawLevel l, yPrev := 0 } : Beeper).FilterOk := by
  cases l <;> simp [Beeper.FilterOk, rawLevel_eq]

/-- The output has the sign of the level it is put out at and is at most twice the amplitude. -/
theorem Beeper.FilterOk.filtered {b : Beeper} (h : b.FilterOk) (l : Bool) :
    if l then 0 ≤ b.filtered l ∧ b.filtered l ≤ 4000 else -4000 ≤ b.filtered l ∧ b.filtered l ≤ 0 := by
  unfold Beeper.filtered Config.alpha
  obtain ⟨hx, hy⟩ | ⟨hx, lo, hi⟩ | ⟨hx, lo, hi⟩ := h
  all_goals
    rw [hx]
    cases l <;> simp only [rawLevel_eq, if_true, Bool.false_eq_true, if_false] <;> push_cast <;> constructor <;> linarith

theorem Beeper.FilterOk.push {b : Beeper} (h : b.FilterOk) (rate t : Nat) (level : Bool) : (b.push rate t level).FilterOk := by
  by_cases hr : b.position ≤ t * rate + 8 * 3500000
  · rw [Beeper.push_within hr]
    exact h
  · rw [Beeper.push_behind (not_le.mp hr)]
    exact Beeper.filterOk_rest { b with } b.outLevel

theorem Beeper.FilterOk.nextSample {b : Beeper} (h : b.FilterOk) (rate : Nat) :
    (b.nextSample rate).2.FilterOk ∧ -4000 ≤ (b.nextSample rate).1 ∧ (b.nextSample rate).1 ≤ 4000 := by
  rw [Beeper.nextSample_eq]
  generalize popUntil rate (b.position + Config.cpuHz) b.ring b.outLevel = popped
  obtain ⟨ring, l⟩ := popped
  by_cases hs : Config.idleSilenceSamples ≤ b.idleNow
  · simp only [hs, if_true]
    exact ⟨Beeper.filterOk_rest { b with } l, by decide⟩
  · have hy := h.filtered l
    simp only [hs, if_false]
    cases l
    · obtain ⟨lo, hi⟩ : -4000 ≤ b.filtered false ∧ b.filtered false ≤ 0 := hy
      exact ⟨.inr (.inr ⟨rfl, lo, hi⟩), clamp16_bound ⟨lo, by linarith⟩⟩
    · obtain ⟨lo, hi⟩ : 0 ≤ b.filtered true ∧ b.filtered true ≤ 4000 := hy
      exact ⟨.inr (.inl ⟨rfl, lo, hi⟩), clamp16_bound ⟨by linarith, hi⟩⟩

/-- The filter is within its bounds, and so is every sample handed out beside those of `old`. -/
structure State.AudioWithin (old : List Int) (s : State) : Prop where
  filter : s.beeper.FilterOk
  samples : ∀ x ∈ s.audioOut, x ∈ old ∨ (-4000 ≤ x ∧ x ≤ 4000)

theorem State.AudioWithin.of_same {old : List Int} {s t : State} (h : s.AudioWithin old) (hb : t.beeper = s.beeper)
    (ho : t.audioOut = s.audioOut) : t.AudioWithin old := ⟨hb ▸ h.filter, ho ▸ h.samples⟩

theorem State.AudioWithin.audioSample {old : List Int} {s : State} (h : s.AudioWithin old) :
    s.audioSample.AudioWithin old := by
  unfold State.audioSample
  split
  next =>
    obtain ⟨hfilter, hbound⟩ := h.filter.nextSample s.config.sampleRate
    refine ⟨hfilter, fun x hx => ?_⟩
    rcases List.mem_append.mp hx with hx | hx
    · exact h.samples x hx
    · exact .inr (List.mem_singleton.mp hx ▸ hbound)
  next => exact h

theorem State.AudioWithin.foldl_applyUlaEvent {old : List Int} : ∀ (q : List UlaEvent) {s : State}, s.AudioWithin old →
    (q.foldl State.applyUlaEvent s).AudioWithin old
  | [], _, h => h
  | e :: q, s, h => by
    refine State.AudioWithin.foldl_applyUlaEvent q ⟨?_, h.samples⟩
    unfold State.applyUlaEvent
    dsimp only
    split
    · exact h.filter.push ..
    · exact h.filter

theorem State.AudioWithin.finishIteration {old : List Int} {s : State} (h : s.AudioWithin old) :
    s.finishIteration.AudioWithin old := by
  have hevents := State.AudioWithin.foldl_applyUlaEvent s.ula.queue (s := s.advance s.cursor.t) ⟨h.filter, h.samples⟩
  refine State.frameBoundary_induction _ ?_ (fun u _ _ _ hu _ => hu.of_same rfl rfl) (fun u data hu => ?_)
  · exact hevents.of_same rfl rfl
  · rw [State.interrupt_eq]
    exact hu.of_same rfl rfl

theorem State.AudioWithin.iterate {old : List Int} {s t : State} (h : s.AudioWithin old) (ht : s.iterate = .next t) :
    t.AudioWithin old := by
  obtain ⟨u, hu, hcase⟩ := iterate_cases ht
  obtain ⟨j, e⟩ := cpuStep_effect hu
  have hsame : u.AudioWithin old := h.of_same (by rw [e.frame]; rfl) (by rw [e.frame]; rfl)
  obtain ⟨-, rfl⟩ | ⟨-, rfl⟩ := hcase
  · exact hsame
  · exact hsame.finishIteration

theorem State.AudioWithin.act {old : List Int} {s t : State} {e : HostEvent} (h : s.AudioWithin old)
    (ht : s.act e = .next t) : t.AudioWithin old := by
  cases e with
  | iterate => exact h.iterate ht
  | audioSample => cases ht; exact h.audioSample
  | setKey | tapeStart | tapePause | tapeResume | tapeRewind => cases ht; exact h.of_same rfl rfl
  | tapeSeek =>
    cases ht
    unfold State.tapeSeek
    split <;> exact h.of_same rfl rfl
  | recordStart | recordStartAppend =>
    cases ht
    unfold State.recordStarted
    split <;> exact h.of_same rfl rfl
  | recordStop => cases ht; rw [State.recordStop_frame]; exact h.of_same rfl rfl
  | shutdown =>
    cases ht
    unfold State.shutdownNow
    dsimp only
    split
    · rw [State.recordStop_frame]; exact h.of_same rfl rfl
    · exact h.of_same rfl rfl

/-- Settles O54: only a push and a sample touch the pipeline, and both keep the filter within its bounds. -/
theorem sampleBound : Obligations.SampleBound := by
  refine ⟨.inl ⟨rfl, rfl⟩, fun s t ht h => ?_⟩
  obtain ⟨e, he⟩ := step_takes_action ht
  obtain ⟨hfilter, hsamples⟩ :=
    State.AudioWithin.act (old := s.audioOut) (s := { s with schedule := s.schedule.tail }) ⟨h, fun _ => .inl⟩ he
  exact ⟨hfilter, hsamples⟩

/-- Settles O53: a sample and the two kinds of push by their equations, the action by its definition. -/
theorem beeperPipeline : Obligations.BeeperPipeline := by
  refine ⟨fun rate b => ?_, fun rate t b level h => Beeper.push_within h level,
    fun rate t b level h => Beeper.push_behind h level, fun s running => ⟨fun hopen => ?_, fun hclosed => ?_⟩⟩
  · have hidle : b.idleNow = if b.ring = [] then b.idleSamples + 1 else 0 := by
      simp only [Beeper.idleNow, List.isEmpty_iff]
    rw [Beeper.nextSample_eq, popUntil_eq]
    simp only [clamp16_eq, hidle]
    rfl
  · simp [requestAnswers_iff running, State.act, State.audioSample, hopen]
  · simp [requestAnswers_iff running, State.act, State.audioSample, hclosed]

end Sys2Proof.Machine
end

section
/-! Unheard: what a step makes of all but the beeper pipeline and the samples does not depend on these two (rules R553,
R612). -/

namespace Sys2Proof.Machine

/-! ## Reading -/

section
variable (s : State)

@[simp] theorem State.withoutAudio_cpu : s.withoutAudio.cpu = s.cpu := rfl
@[simp] theorem State.withoutAudio_cursor : s.withoutAudio.cursor = s.cursor := rfl
@[simp] theorem State.withoutAudio_ioRead (port : Word) : s.withoutAudio.ioRead port = s.ioRead port := rfl
@[simp] theorem State.withoutAudio_read8 (a : Word) : s.withoutAudio.read8 a = s.read8 a := rfl
@[simp] theorem State.withoutAudio_read16 (a : Word) : s.withoutAudio.read16 a = s.read16 a := rfl

/-! ## Named updates -/

@[simp] theorem State.withoutAudio_setCpu (c : Cpu) : s.withoutAudio.setCpu c = (s.setCpu c).withoutAudio := rfl
@[simp] theorem State.withoutAudio_tick (k : Nat) : s.withoutAudio.tick k = (s.tick k).withoutAudio := rfl
@[simp] theorem State.withoutAudio_fetched (n k t : Nat) :
    s.withoutAudio.fetched n k t = (s.fetched n k t).withoutAudio := rfl
@[simp] theorem State.withoutAudio_fetchedIdx (xy : Xy) (n k t : Nat) :
    s.withoutAudio.fetchedIdx xy n k t = (s.fetchedIdx xy n k t).withoutAudio := rfl
@[simp] theorem State.withoutAudio_fetchedXy (xy : Xy) : s.withoutAudio.fetchedXy xy = (s.fetchedXy xy).withoutAudio := rfl
@[simp] theorem State.withoutAudio_setA (v : Byte) : s.withoutAudio.setA v = (s.setA v).withoutAudio := rfl
@[simp] theorem State.withoutAudio_setF (v : Byte) : s.withoutAudio.setF v = (s.setF v).withoutAudio := rfl
@[simp] theorem State.withoutAudio_setB (v : Byte) : s.withoutAudio.setB v = (s.setB v).withoutAudio := rfl
@[simp] theorem State.withoutAudio_setSp (v : Word) : s.withoutAudio.setSp v = (s.setSp v).withoutAudio := rfl
@[simp] theorem State.withoutAudio_setPc (v : Word) : s.withoutAudio.setPc v = (s.setPc v).withoutAudio := rfl
@[simp] theorem State.withoutAudio_setAF (w : Byte × Byte) : s.withoutAudio.setAF w = (s.setAF w).withoutAudio := rfl
@[simp] theorem State.withoutAudio_setBc (v : Word) : s.withoutAudio.setBc v = (s.setBc v).withoutAudio := rfl
@[simp] theorem State.withoutAudio_setDe (v : Word) : s.withoutAudio.setDe v = (s.setDe v).withoutAudio := rfl
@[simp] theorem State.withoutAudio_setHl (v : Word) : s.withoutAudio.setHl v = (s.setHl v).withoutAudio := rfl
@[simp] theorem State.withoutAudio_setReg8 (r : Reg8) (v : Byte) :
    s.withoutAudio.setReg8 r v = (s.setReg8 r v).withoutAudio := rfl

@[simp] theorem State.withoutAudio_setXy (xy : Xy) (v : Word) : s.withoutAudio.setXy xy v = (s.setXy xy v).withoutAudio := by
  cases xy <;> rfl

@[simp] theorem State.withoutAudio_setHalf (xy : Xy) (k : Half) (v : Byte) :
    s.withoutAudio.setHalf xy k v = (s.setHalf xy k v).withoutAudio := by
  cases k <;> simp [State.setHalf]

@[simp] theorem State.withoutAudio_setReg8Xy (xy : Xy) (r : Reg8) (v : Byte) :
    s.withoutAudio.setReg8Xy xy r v = (s.setReg8Xy xy r v).withoutAudio := by
  cases r <;> simp [State.setReg8Xy]

@[simp] theorem State.withoutAudio_setRp (p : Rp) (v : Word) : s.withoutAudio.setRp p v = (s.setRp p v).withoutAudio := by
  cases p <;> rfl

@[simp] theorem State.withoutAudio_setRp2 (p : Rp2) (v : Word) :
    s.withoutAudio.setRp2 p v = (s.setRp2 p v).withoutAudio := by
  cases p <;> rfl

/-! ## Stores, the stack, ports and choices -/

@[simp] theorem State.withoutAudio_write8 (a : Word) (v : Byte) :
    s.withoutAudio.write8 a v = (s.write8 a v).withoutAudio := by
  unfold State.write8
  split <;> rfl

@[simp] theorem State.withoutAudio_write16 (a v : Word) :
    s.withoutAudio.write16 a v = (s.write16 a v).withoutAudio := by
  simp [State.write16]

@[simp] theorem State.withoutAudio_push16 (v : Word) : s.withoutAudio.push16 v = (s.push16 v).withoutAudio := by
  simp [State.push16]

@[simp] theorem State.withoutAudio_pop16 : s.withoutAudio.pop16 = (s.pop16.1, s.pop16.2.withoutAudio) := rfl

@[simp] theorem State.withoutAudio_ioWrite (port : Word) (v : Byte) :
    s.withoutAudio.ioWrite port v = (s.ioWrite port v).withoutAudio := by
  unfold State.ioWrite
  split <;> rfl

@[simp] theorem State.withoutAudio_drawIoFlags : s.withoutAudio.drawIoFlags = s.drawIoFlags.withoutAudio := rfl

theorem State.ite_withoutAudio {c c' : Prop} [Decidable c] [Decidable c'] {t t' u u' : State} (hc : c' ↔ c)
    (ht : t' = t.withoutAudio) (hu : u' = u.withoutAudio) :
    (if c' then t' else u') = (if c then t else u).withoutAudio := by
  rw [if_congr hc ht hu]
  split <;> rfl

@[simp] theorem State.withoutAudio_repeatIf (again : Bool) :
    s.withoutAudio.repeatIf again = (s.repeatIf again).withoutAudio :=
  State.ite_withoutAudio Iff.rfl rfl rfl

@[simp] theorem State.withoutAudio_returnFromInterrupt :
    s.withoutAudio.returnFromInterrupt = s.returnFromInterrupt.withoutAudio := rfl

@[simp] theorem State.withoutAudio_raiseUnknownOpcode (op : Byte) :
    s.withoutAudio.raiseUnknownOpcode op = (s.raiseUnknownOpcode op).withoutAudio := rfl

/-! ## The parts that several instructions share -/

@[simp] theorem State.withoutAudio_setHlF (w : Word × Byte) : s.withoutAudio.setHlF w = (s.setHlF w).withoutAudio := rfl

@[simp] theorem State.withoutAudio_setXyF (xy : Xy) (w : Word × Byte) :
    s.withoutAudio.setXyF xy w = (s.setXyF xy w).withoutAudio := by
  simp [State.setXyF]

@[simp] theorem State.withoutAudio_aluReg (op : AluOp) (r : Reg8) :
    s.withoutAudio.aluReg op r = (s.aluReg op r).withoutAudio := rfl

@[simp] theorem State.withoutAudio_aluMemHl (op : AluOp) :
    s.withoutAudio.aluMemHl op = (s.aluMemHl op).withoutAudio := rfl

@[simp] theorem State.withoutAudio_aluImm (op : AluOp) (n : Byte) :
    s.withoutAudio.aluImm op n = (s.aluImm op n).withoutAudio := rfl

@[simp] theorem State.withoutAudio_aluXyd (op : AluOp) (xy : Xy) (d : Byte) :
    s.withoutAudio.aluXyd op xy d = (s.aluXyd op xy d).withoutAudio := rfl

@[simp] theorem State.withoutAudio_aluXyHalf (op : AluOp) (xy : Xy) (k : Half) :
    s.withoutAudio.aluXyHalf op xy k = (s.aluXyHalf op xy k).withoutAudio := rfl

@[simp] theorem State.withoutAudio_stepReg (f : Byte → Byte → Byte × Byte) (r : Reg8) :
    s.withoutAudio.stepReg f r = (s.stepReg f r).withoutAudio := rfl

@[simp] theorem State.withoutAudio_stepMem (f : Byte → Byte → Byte × Byte) (a : Word) :
    s.withoutAudio.stepMem f a = (s.stepMem f a).withoutAudio := by
  simp [State.stepMem]

@[simp] theorem State.withoutAudio_stepHalf (f : Byte → Byte → Byte × Byte) (xy : Xy) (k : Half) :
    s.withoutAudio.stepHalf f xy k = (s.stepHalf f xy k).withoutAudio := by
  simp [State.stepHalf]

@[simp] theorem State.withoutAudio_rotateA (op : RotOp) : s.withoutAudio.rotateA op = (s.rotateA op).withoutAudio := rfl

@[simp] theorem State.withoutAudio_rotReg (op : RotOp) (r : Reg8) :
    s.withoutAudio.rotReg op r = (s.rotReg op r).withoutAudio := rfl

@[simp] theorem State.withoutAudio_rotMem (op : RotOp) (a : Word) :
    s.withoutAudio.rotMem op a = ((s.rotMem op a).1, (s.rotMem op a).2.withoutAudio) := by
  simp [State.rotMem]

@[simp] theorem State.withoutAudio_rotMemHl (op : RotOp) :
    s.withoutAudio.rotMemHl op = (s.rotMemHl op).withoutAudio := by
  simp [State.rotMemHl]

@[simp] theorem State.withoutAudio_rotXyd (op : RotOp) (xy : Xy) (d : Byte) :
    s.withoutAudio.rotXyd op xy d = (s.rotXyd op xy d).withoutAudio := by
  simp [State.rotXyd]

@[simp] theorem State.withoutAudio_rotXydR (op : RotOp) (xy : Xy) (d : Byte) (r : Reg8) :
    s.withoutAudio.rotXydR op xy d r = (s.rotXydR op xy d r).withoutAudio := by
  simp [State.rotXydR]

@[simp] theorem State.withoutAudio_rotateDigits (f : Byte → Byte → Byte × Byte) :
    s.withoutAudio.rotateDigits f = (s.rotateDigits f).withoutAudio := by
  simp [State.rotateDigits]

@[simp] theorem State.withoutAudio_bitReg (f : Byte → Byte) (r : Reg8) :
    s.withoutAudio.bitReg f r = (s.bitReg f r).withoutAudio := rfl

@[simp] theorem State.withoutAudio_bitMemHl (f : Byte → Byte) :
    s.withoutAudio.bitMemHl f = (s.bitMemHl f).withoutAudio := by
  simp [State.bitMemHl]

@[simp] theorem State.withoutAudio_bitXyd (f : Byte → Byte) (xy : Xy) (d : Byte) :
    s.withoutAudio.bitXyd f xy d = (s.bitXyd f xy d).withoutAudio := by
  simp [State.bitXyd]

@[simp] theorem State.withoutAudio_bitXydR (f : Byte → Byte) (xy : Xy) (d : Byte) (r : Reg8) :
    s.withoutAudio.bitXydR f xy d r = (s.bitXydR f xy d r).withoutAudio := by
  simp [State.bitXydR]

@[simp] theorem State.withoutAudio_blockLd (delta : Word) :
    s.withoutAudio.blockLd delta = (s.blockLd delta).withoutAudio := by
  simp [State.blockLd]

@[simp] theorem State.withoutAudio_blockCp (delta : Word) :
    s.withoutAudio.blockCp delta = (s.blockCp delta).withoutAudio := rfl

@[simp] theorem State.withoutAudio_blockIn (delta : Word) :
    s.withoutAudio.blockIn delta = (s.blockIn delta).withoutAudio := by
  simp [State.blockIn]

@[simp] theorem State.withoutAudio_blockOut (delta : Word) :
    s.withoutAudio.blockOut delta = (s.blockOut delta).withoutAudio := by
  simp [State.blockOut]

@[simp] theorem State.withoutAudio_searchGoesOn : s.withoutAudio.searchGoesOn = s.searchGoesOn := rfl

@[simp] theorem State.withoutAudio_countGoesOn : s.withoutAudio.countGoesOn = s.countGoesOn := rfl

@[simp] theorem State.withoutAudio_jumpRel (e : Byte) : s.withoutAudio.jumpRel e = (s.jumpRel e).withoutAudio := rfl

@[simp] theorem State.withoutAudio_jrIf (taken : Bool) (e : Byte) :
    s.withoutAudio.jrIf taken e = (s.jrIf taken e).withoutAudio :=
  State.ite_withoutAudio Iff.rfl rfl rfl

@[simp] theorem State.withoutAudio_callTo (target : Word) :
    s.withoutAudio.callTo target = (s.callTo target).withoutAudio := by
  simp [State.callTo]

@[simp] theorem State.withoutAudio_popPc : s.withoutAudio.popPc = s.popPc.withoutAudio := rfl

@[simp] theorem State.withoutAudio_loadAir (v : Byte) : s.withoutAudio.loadAir v = (s.loadAir v).withoutAudio := rfl

@[simp] theorem State.withoutAudio_setIm (m : IntMode) : s.withoutAudio.setIm m = (s.setIm m).withoutAudio := rfl

@[simp] theorem State.withoutAudio_outC (v : Byte) : s.withoutAudio.outC v = (s.outC v).withoutAudio := by
  simp [State.outC]

end

/-- An instruction does the same to all but the audio, whatever the audio is. -/
theorem exec_withoutAudio (i : Instr) (s : State) :
    ∃ t, exec i s = .next t ∧ exec i s.withoutAudio = .next t.withoutAudio := by
  induction i generalizing s with
  | xpMain xy i ih => exact exec_xpMain xy i s ▸ exec_xpMain xy i s.withoutAudio ▸ ih (s.fetchedXy xy)
  | xpEd xy i ih => exact exec_xpEd xy i s ▸ exec_xpEd xy i s.withoutAudio ▸ ih (s.fetchedXy xy)
  | xpXp xy i ih => exact exec_xpXp xy i s ▸ exec_xpXp xy i s.withoutAudio ▸ ih (s.fetchedXy xy)
  | djnz | jpCcNn | callCcNn | retCc =>
    exact ⟨_, rfl, congrArg Host.Outcome.next (State.ite_withoutAudio Iff.rfl (by simp) rfl)⟩
  | _ => exact ⟨_, rfl, congrArg Host.Outcome.next (by simp)⟩

/-! ## A step (rules R540 .. R546, R612) -/

/-- What a step answers, without the audio. -/
def resultWithoutAudio : Result → Result
  | .next t => .next t.withoutAudio
  | .fault f => .fault f
  | .refused f => .refused f

theorem cpuStep_withoutAudio (s : State) : s.withoutAudio.cpuStep = resultWithoutAudio s.cpuStep := by
  have hbegin : s.withoutAudio.beginStep = s.beginStep.withoutAudio := rfl
  have hfetch : s.beginStep.withoutAudio.fetchInstr = s.beginStep.fetchInstr := rfl
  unfold State.cpuStep
  simp only [hbegin, hfetch, State.withoutAudio_cpu]
  split
  · rfl
  · split
    next i _ =>
      obtain ⟨t, ht, hw⟩ := exec_withoutAudio i s.beginStep
      rw [ht, hw]
      rfl
    next => rfl

theorem foldl_applyUlaEvent_withoutAudio (q : List UlaEvent) (s : State) :
    (q.foldl State.applyUlaEvent s.withoutAudio).withoutAudio = (q.foldl State.applyUlaEvent s).withoutAudio := by
  induction q generalizing s with
  | nil => rfl
  | cons e q ih =>
    rw [List.foldl_cons, List.foldl_cons, ← ih (s.withoutAudio.applyUlaEvent e), ← ih (s.applyUlaEvent e)]
    rfl

theorem processEvents_withoutAudio (s : State) : s.withoutAudio.processEvents.withoutAudio = s.processEvents.withoutAudio :=
  congrArg (fun u : State => { u with ula := { u.ula with queue := [] } }) (foldl_applyUlaEvent_withoutAudio _ s)

theorem updateDevices_withoutAudio (s : State) : s.withoutAudio.updateDevices.withoutAudio = s.updateDevices.withoutAudio :=
  congrArg (fun u : State => { u with tape := u.tape.update u.clock, recorder := u.recorder.update u.config u.clock false })
    (processEvents_withoutAudio s)

theorem interrupt_withoutAudio (s : State) (data : Byte) :
    s.withoutAudio.interrupt data = ((s.interrupt data).1.withoutAudio, (s.interrupt data).2) := by
  have hpush : ∀ (c : Cpu) (v : Word),
      ({ s.withoutAudio with cpu := c } : State).push16 v = (({ s with cpu := c } : State).push16 v).withoutAudio :=
    fun c v => State.withoutAudio_push16 { s with cpu := c } v
  unfold State.interrupt
  simp only [State.withoutAudio_cpu, hpush]
  rfl

theorem frameInterrupt_withoutAudio (s : State) : s.withoutAudio.frameInterrupt = s.frameInterrupt.withoutAudio :=
  State.ite_withoutAudio Iff.rfl (by rw [interrupt_withoutAudio]; rfl) rfl

theorem frameBoundary_withoutAudio (s : State) : s.withoutAudio.frameBoundary = s.frameBoundary.withoutAudio :=
  State.ite_withoutAudio Iff.rfl
    (congrArg (fun u : State => { u with framesPresented := u.framesPresented + 1 })
      (frameInterrupt_withoutAudio { s with frameAcc := s.frameAcc - Config.frameTStates })) rfl

theorem finishIteration_withoutAudio (s : State) :
    s.withoutAudio.finishIteration.withoutAudio = s.finishIteration.withoutAudio := by
  have hadvance : s.withoutAudio.advance s.cursor.t = (s.advance s.cursor.t).withoutAudio := rfl
  unfold State.finishIteration
  rw [← frameBoundary_withoutAudio, ← frameBoundary_withoutAudio, State.withoutAudio_cursor, hadvance,
    updateDevices_withoutAudio]

theorem iterate_withoutAudio (s : State) : resultWithoutAudio s.withoutAudio.iterate = resultWithoutAudio s.iterate := by
  unfold State.iterate
  rw [cpuStep_withoutAudio]
  cases s.cpuStep with
  | next t =>
    simp only [resultWithoutAudio]
    change resultWithoutAudio (if t.fault.isSome = true then _ else _) = _
    split
    · rfl
    · exact congrArg Host.Outcome.next (finishIteration_withoutAudio t)
  | fault f => rfl
  | refused f => rfl

theorem audioSample_withoutAudio (s : State) : s.audioSample.withoutAudio = s.withoutAudio := by
  unfold State.audioSample
  split <;> rfl

theorem recordStarted_withoutAudio (s : State) (r : Except HostError Recorder) :
    s.withoutAudio.recordStarted r = (s.recordStarted r).withoutAudio := by
  cases r <;> rfl

theorem recordStop_withoutAudio (s : State) : s.withoutAudio.recordStop = s.recordStop.withoutAudio :=
  State.ite_withoutAudio Iff.rfl (State.ite_withoutAudio Iff.rfl rfl rfl) rfl

theorem tapeSeek_withoutAudio (s : State) (at_ : Nat) : s.withoutAudio.tapeSeek at_ = (s.tapeSeek at_).withoutAudio := by
  have htape : s.withoutAudio.tape = s.tape := rfl
  unfold State.tapeSeek
  rw [htape]
  cases s.tape.seek at_ <;> rfl

theorem shutdownNow_withoutAudio (s : State) : s.withoutAudio.shutdownNow = s.shutdownNow.withoutAudio := by
  have hstop : (if s.withoutAudio.recorder.enabled then s.withoutAudio.recordStop else s.withoutAudio.accept) =
      (if s.recorder.enabled then s.recordStop else s.accept).withoutAudio :=
    State.ite_withoutAudio Iff.rfl (recordStop_withoutAudio s) rfl
  unfold State.shutdownNow
  rw [hstop]
  rfl

theorem next_withoutAudio {t u : State} (h : t = u.withoutAudio) :
    resultWithoutAudio (.next t) = resultWithoutAudio (.next u) := h ▸ rfl

theorem act_withoutAudio (s : State) (e : HostEvent) :
    resultWithoutAudio (s.withoutAudio.act e) = resultWithoutAudio (s.act e) := by
  cases e with
  | iterate => exact iterate_withoutAudio s
  | audioSample =>
    exact congrArg Host.Outcome.next ((audioSample_withoutAudio s.withoutAudio).trans (audioSample_withoutAudio s).symm)
  | setKey | tapeStart | tapePause | tapeResume | tapeRewind => rfl
  | tapeSeek at_ => exact next_withoutAudio (tapeSeek_withoutAudio s at_)
  | recordStart | recordStartAppend => exact next_withoutAudio (recordStarted_withoutAudio s _)
  | recordStop => exact next_withoutAudio (recordStop_withoutAudio s)
  | shutdown => exact next_withoutAudio (shutdownNow_withoutAudio s)

theorem step_withoutAudio (s : State) : resultWithoutAudio (step s.withoutAudio) = resultWithoutAudio (step s) := by
  have hdown : s.withoutAudio.shutDown = s.shutDown := rfl
  have hfault : s.withoutAudio.fault = s.fault := rfl
  have hschedule : s.withoutAudio.schedule = s.schedule := rfl
  unfold step
  rw [hdown, hfault, hschedule]
  split
  · rfl
  · cases s.fault with
    | some record => rfl
    | none =>
      cases s.schedule with
      | nil => exact iterate_withoutAudio s
      | cons e rest => exact act_withoutAudio { s with schedule := rest, fault := none } e

/-- Settles O21: both machines step as the one without audio does. -/
theorem audioIsUnobservable : Obligations.AudioIsUnobservable := by
  refine ⟨fun s u h => ?_, audioSample_withoutAudio⟩
  have hstep : resultWithoutAudio (step s) = resultWithoutAudio (step u) := by
    rw [← step_withoutAudio s, h, step_withoutAudio]
  generalize step s = a at hstep ⊢
  generalize step u = b at hstep ⊢
  cases a <;> cases b <;> simp_all [resultWithoutAudio]

end Sys2Proof.Machine
end

section
/-! Iteration: what an instruction takes, process_events, the frame boundary and the interrupt (rules R409, R541 .. R545,
R562 .. R568). -/

namespace Sys2Proof.Machine

/-- Settles O10: every instruction answers, and all but an undefined ED sub-opcode leave the latch. -/
theorem everyInstructionCompletes : Obligations.EveryInstructionCompletes := by
  intro i s
  obtain hundef | ⟨t, ht, hfault⟩ := exec_fault i s
  · obtain ⟨t, ht, -⟩ := exec_effect i s
    exact ⟨t, ht, .inr hundef⟩
  · exact ⟨t, ht, .inl hfault⟩

/-! ## The interrupt (rules R566 .. R568) -/

/-- The word pushed: PC, past the HALT byte of a halted CPU. -/
def State.returnAddress (s : State) : Word := if s.cpu.halted then s.cpu.pc + 1#16 else s.cpu.pc

theorem interrupt_storedWord {s : State} (hm : s.mem.wf = true) (data : Byte) :
    StoredWord s (s.interrupt data).1 (s.cpu.sp - 2#16) s.returnAddress := by
  rw [State.interrupt_eq]
  exact storedWord_push16 (s := s.setPc s.returnAddress) hm s.returnAddress

/-- Where it goes, in mode 2 and in the others; the vector is read from the memory the push left. -/
theorem interrupt_target (s : State) (data : Byte) :
    (s.cpu.im ≠ .im2 → (s.interrupt data).1.cpu.pc = 0x0038#16 ∧ (s.interrupt data).2 = 13) ∧
      (s.cpu.im = .im2 → (s.interrupt data).1.cpu.pc = (s.interrupt data).1.read16 (mkWord s.cpu.i data) ∧
        (s.interrupt data).2 = 19) := by
  unfold State.interrupt State.interruptTarget
  simp only [State.push16_cpu_eq]
  cases s.cpu.im
  · exact ⟨fun _ => ⟨rfl, rfl⟩, nofun⟩
  · exact ⟨fun _ => ⟨rfl, rfl⟩, nofun⟩
  · exact ⟨fun h => absurd rfl h, fun _ => ⟨rfl, rfl⟩⟩

/-- Settles O13: the push and the clears by the interrupt's equation, the target by the mode. -/
theorem interruptEntry : Obligations.InterruptEntry := by
  intro s data hm
  refine ⟨?_, interrupt_storedWord hm data, ?_, ?_, interrupt_target s data⟩
  · rw [State.interrupt_eq]
  · rw [SameOutside, State.interrupt_eq]
  · rw [State.interrupt_eq]

/-! ## The frame boundary (rules R543 .. R545, R563, R564) -/

theorem frameBoundary_before {s : State} (h : s.frameAcc < Config.frameTStates) : s.frameBoundary = s := by
  simp [State.frameBoundary, Nat.not_le.mpr h]

theorem frameBoundary_lost {s : State} (h : Config.frameTStates ≤ s.frameAcc) (hi : s.cpu.iff1 = false) :
    s.frameBoundary =
      { s with frameAcc := s.frameAcc - Config.frameTStates, framesPresented := s.framesPresented + 1 } := by
  simp [State.frameBoundary, State.frameInterrupt, h, hi]

theorem frameBoundary_taken {s : State} (h : Config.frameTStates ≤ s.frameAcc) (hi : s.cpu.iff1 = true) :
    let w := ({ s with frameAcc := s.frameAcc - Config.frameTStates } : State).interrupt Config.intDataByte
    s.frameBoundary =
      { w.1 with clock := s.clock + w.2, frameAcc := s.frameAcc - Config.frameTStates + w.2,
                 framesPresented := s.framesPresented + 1 } := by
  dsimp only
  simp only [State.frameBoundary, State.frameInterrupt, h, hi, if_true, State.advance]
  rw [State.interrupt_eq]

/-- Settles O14. -/
theorem frameBoundary : Obligations.FrameBoundary := 
  fun _ => ⟨frameBoundary_before, frameBoundary_lost, frameBoundary_taken⟩

/-! ## process_events (rule R409) -/

/-- The state with other events in the ULA's queue. -/
def State.withQueue (s : State) (q : List UlaEvent) : State := { s with ula := { s.ula with queue := q } }

theorem processEvents_eq_foldl (s : State) : s.processEvents = (s.ula.queue.foldl State.applyUlaEvent s).withQueue [] := rfl

theorem processEvents_nil {s : State} (h : s.ula.queue = []) : s.processEvents = s := by
  rw [processEvents_eq_foldl, h, List.foldl_nil, State.withQueue, ← h]

/-- What the events do does not depend on the queue, and leaves it. -/
theorem foldl_applyUlaEvent_withQueue (q r : List UlaEvent) (s : State) :
    q.foldl State.applyUlaEvent (s.withQueue r) = (q.foldl State.applyUlaEvent s).withQueue r := by
  induction q generalizing s with
  | nil => rfl
  | cons e q ih => exact ih (s.applyUlaEvent e)

theorem foldl_applyUlaEvent_lastT (q : List UlaEvent) (s : State) :
    (q.foldl State.applyUlaEvent s).ula.lastT = s.ula.lastT := by
  induction q generalizing s with
  | nil => rfl
  | cons e q ih => exact ih (s.applyUlaEvent e)

theorem processEvents_cons {s : State} {e : UlaEvent} {rest : List UlaEvent} (h : s.ula.queue = e :: rest) :
    s.processEvents = ((s.applyUlaEvent e).withQueue rest).processEvents := by
  have hqueue : ((s.applyUlaEvent e).withQueue rest).ula.queue = rest := rfl
  rw [processEvents_eq_foldl, processEvents_eq_foldl, h, hqueue, foldl_applyUlaEvent_withQueue]
  rfl

theorem processEvents_latches {s : State} {q : List UlaEvent} {e : UlaEvent} (h : s.ula.queue = q ++ [e]) :
    s.processEvents.ula =
      { border := e.value.extractLsb' 0 3, beeperLevel := bit e.value 4, micLevel := bit e.value 3, queue := [],
        lastT := s.ula.lastT } := by
  rw [processEvents_eq_foldl, h, List.foldl_concat, ← foldl_applyUlaEvent_lastT q s]
  rfl

/-- Settles O51: the first event by its definition, the last one as the one that writes the latches last. -/
theorem ulaEventsProcessed : Obligations.UlaEventsProcessed := by
  refine ⟨fun s => processEvents_nil, fun s e rest h => ?_, fun s q e => processEvents_latches⟩
  have hbeeper : (s.applyUlaEvent e).beeper =
      if bit e.value 4 = s.ula.beeperLevel then s.beeper
      else s.beeper.push s.config.sampleRate e.tState (bit e.value 4) := by
    simp only [State.applyUlaEvent, bne_iff_ne, ne_eq, ite_not]
  rw [processEvents_cons h, ← hbeeper]
  rfl

/-! ## The T-states of an instruction (rules R120, R121, R541) -/

section
variable (s : State)

@[simp] theorem State.aluReg_t (op : AluOp) (r : Reg8) : (s.aluReg op r).cursor.t = s.cursor.t + 4 := rfl
@[simp] theorem State.aluMemHl_t (op : AluOp) : (s.aluMemHl op).cursor.t = s.cursor.t + 7 := rfl
@[simp] theorem State.aluImm_t (op : AluOp) (n : Byte) : (s.aluImm op n).cursor.t = s.cursor.t + 7 := rfl
@[simp] theorem State.aluXyd_t (op : AluOp) (xy : Xy) (d : Byte) : (s.aluXyd op xy d).cursor.t = s.cursor.t + 19 := rfl
@[simp] theorem State.aluXyHalf_t (op : AluOp) (xy : Xy) (k : Half) :
    (s.aluXyHalf op xy k).cursor.t = s.cursor.t + 8 := rfl

@[simp] theorem State.stepReg_cursor (f : Byte → Byte → Byte × Byte) (r : Reg8) : (s.stepReg f r).cursor = s.cursor := rfl
@[simp] theorem State.stepMem_cursor (f : Byte → Byte → Byte × Byte) (a : Word) : (s.stepMem f a).cursor = s.cursor := by
  simp [State.stepMem]
@[simp] theorem State.stepHalf_cursor (f : Byte → Byte → Byte × Byte) (xy : Xy) (k : Half) :
    (s.stepHalf f xy k).cursor = s.cursor := by
  simp [State.stepHalf]
@[simp] theorem State.setHlF_cursor (w : Word × Byte) : (s.setHlF w).cursor = s.cursor := rfl
@[simp] theorem State.setXyF_cursor (xy : Xy) (w : Word × Byte) : (s.setXyF xy w).cursor = s.cursor := by
  simp [State.setXyF]

@[simp] theorem State.rotateA_t (op : RotOp) : (s.rotateA op).cursor.t = s.cursor.t + 4 := rfl
@[simp] theorem State.rotReg_t (op : RotOp) (r : Reg8) : (s.rotReg op r).cursor.t = s.cursor.t + 8 := rfl
@[simp] theorem State.rotMem_cursor (op : RotOp) (a : Word) : (s.rotMem op a).2.cursor = s.cursor := by
  simp [State.rotMem]
@[simp] theorem State.rotMemHl_t (op : RotOp) : (s.rotMemHl op).cursor.t = s.cursor.t + 15 := by simp [State.rotMemHl]
@[simp] theorem State.rotXyd_t (op : RotOp) (xy : Xy) (d : Byte) : (s.rotXyd op xy d).cursor.t = s.cursor.t + 23 := by
  simp [State.rotXyd]
@[simp] theorem State.rotXydR_t (op : RotOp) (xy : Xy) (d : Byte) (r : Reg8) :
    (s.rotXydR op xy d r).cursor.t = s.cursor.t + 23 := by
  simp [State.rotXydR]
@[simp] theorem State.rotateDigits_t (f : Byte → Byte → Byte × Byte) :
    (s.rotateDigits f).cursor.t = s.cursor.t + 18 := by
  simp [State.rotateDigits]

@[simp] theorem State.bitReg_t (f : Byte → Byte) (r : Reg8) : (s.bitReg f r).cursor.t = s.cursor.t + 8 := rfl
@[simp] theorem State.bitMemHl_t (f : Byte → Byte) : (s.bitMemHl f).cursor.t = s.cursor.t + 15 := by simp [State.bitMemHl]
@[simp] theorem State.bitXyd_t (f : Byte → Byte) (xy : Xy) (d : Byte) : (s.bitXyd f xy d).cursor.t = s.cursor.t + 23 := by
  simp [State.bitXyd]
@[simp] theorem State.bitXydR_t (f : Byte → Byte) (xy : Xy) (d : Byte) (r : Reg8) :
    (s.bitXydR f xy d r).cursor.t = s.cursor.t + 23 := by
  simp [State.bitXydR]

@[simp] theorem State.blockLd_t (delta : Word) : (s.blockLd delta).cursor.t = s.cursor.t + 16 := by rw [State.blockLd_eq]
@[simp] theorem State.blockCp_t (delta : Word) : (s.blockCp delta).cursor.t = s.cursor.t + 16 := by rw [State.blockCp_eq]
@[simp] theorem State.blockIn_t (delta : Word) : (s.blockIn delta).cursor.t = s.cursor.t + 16 := by rw [State.blockIn_eq]
@[simp] theorem State.blockOut_t (delta : Word) : (s.blockOut delta).cursor.t = s.cursor.t + 16 := by
  rw [State.blockOut_eq]
theorem State.le_repeatIf_t (again : Bool) : s.cursor.t ≤ (s.repeatIf again).cursor.t :=
  ((Plain.refl s).repeatIf again).later

@[simp] theorem State.jumpRel_cursor (e : Byte) : (s.jumpRel e).cursor = s.cursor := rfl
theorem State.le_jrIf_t (taken : Bool) (e : Byte) : s.cursor.t + 7 ≤ (s.jrIf taken e).cursor.t :=
  ((Plain.refl (s.fetched 2 1 7)).jumpRel e |>.tick 5 |>.ite (.refl _)).later
@[simp] theorem State.callTo_cursor (target : Word) : (s.callTo target).cursor = s.cursor := by rw [State.callTo_eq]
@[simp] theorem State.popPc_cursor : s.popPc.cursor = s.cursor := rfl
@[simp] theorem State.returnFromInterrupt_cursor : s.returnFromInterrupt.cursor = s.cursor := rfl
@[simp] theorem State.loadAir_cursor (v : Byte) : (s.loadAir v).cursor = s.cursor := rfl
@[simp] theorem State.setIm_t (m : IntMode) : (s.setIm m).cursor.t = s.cursor.t + 8 := rfl
@[simp] theorem State.outC_t (v : Byte) : (s.outC v).cursor.t = s.cursor.t + 12 := by rw [State.outC_eq]
@[simp] theorem State.raiseUnknownOpcode_cursor (op : Byte) : (s.raiseUnknownOpcode op).cursor = s.cursor := rfl

end

/-- Every instruction takes 4 T-states or more, each index byte before it 4 more. -/
theorem exec_takes_four (i : Instr) (s : State) : ∃ t, exec i s = .next t ∧ s.cursor.t + 4 ≤ t.cursor.t := by
  induction i generalizing s with
  | xpMain xy i ih =>
    obtain ⟨t, ht, hle⟩ := ih (s.fetchedXy xy)
    exact ⟨t, (exec_xpMain xy i s).trans ht, (Nat.le_add_right _ 4).trans hle⟩
  | xpEd xy i ih =>
    obtain ⟨t, ht, hle⟩ := ih (s.fetchedXy xy)
    exact ⟨t, (exec_xpEd xy i s).trans ht, (Nat.le_add_right _ 4).trans hle⟩
  | xpXp xy i ih =>
    obtain ⟨t, ht, hle⟩ := ih (s.fetchedXy xy)
    exact ⟨t, (exec_xpXp xy i s).trans ht, (Nat.le_add_right _ 4).trans hle⟩
  | djnz | jpCcNn | callCcNn | retCc => exact ⟨_, rfl, by split <;> simp⟩
  | jrNz | jrZ | jrNc | jrC => exact ⟨_, rfl, le_trans (by simp) (State.le_jrIf_t ..)⟩
  | ldir | lddr | cpir | cpdr | inir | indr | otir | otdr => exact ⟨_, rfl, le_trans (by simp) (State.le_repeatIf_t ..)⟩
  | _ => exact ⟨_, rfl, by simp⟩

/-- So does every step of the CPU, halted or not, and the clock has not moved yet. -/
theorem cpuStep_takes_four {s t : State} (h : s.cpuStep = .next t) : t.clock = s.clock ∧ 4 ≤ t.cursor.t := by
  obtain ⟨j, e⟩ := cpuStep_effect h
  refine ⟨by rw [e.frame]; rfl, ?_⟩
  unfold State.cpuStep at h
  dsimp only at h
  split at h
  · cases h
    exact Nat.le_refl 4
  · split at h
    next i _ =>
      obtain ⟨u, hu, hle⟩ := exec_takes_four i s.beginStep
      cases hu.symm.trans h
      exact (Nat.le_add_left ..).trans hle
    next => cases h

/-- The rest of an iteration adds the step's T-states to the clock, and the interrupt's if it is taken. -/
theorem le_finishIteration_clock (s : State) : s.clock + s.cursor.t ≤ s.finishIteration.clock := by
  refine State.frameBoundary_induction (P := fun u => s.clock + s.cursor.t ≤ u.clock) _ ?_
    (fun u _ _ _ hu hle => hu.trans hle) (fun u data hu => ?_)
  · rw [State.updateDevices_eq]
    exact Nat.le_refl _
  · rw [State.interrupt_eq]
    exact hu

/-- Settles O9: the T-states of the step reach the clock unless the step set the latch. -/
theorem clockAdvances : Obligations.ClockAdvances := by
  intro s t h hfault
  obtain ⟨u, hu, ⟨hset, rfl⟩ | ⟨-, rfl⟩⟩ := iterate_cases h
  · simp [hfault] at hset
  · obtain ⟨hclock, hfour⟩ := cpuStep_takes_four hu
    have := le_finishIteration_clock u
    omega

end Sys2Proof.Machine
end

section
/-! TapeControls: start, pause, resume, rewind and seek (rules R470 .. R472, R478, R479, R486, R546). -/

namespace Sys2Proof.Machine

/-! ## The controls, case by case -/

theorem Tape.update_of_none {t : Tape} (h : t.source = none) (now : Nat) : t.update now = t := by
  simp only [Tape.update, h]

theorem Tape.start_of_cons {t : Tape} {w : Waveform} {p : U32} {rest : List U32} (h : t.source = some w)
    (hw : w.pulses = p :: rest) (now : Nat) :
    t.start now =
      { source := some w, playing := true, cursor := 0, earLevel := w.initialLevel, nextTransition := now + p.toNat,
        remaining := 0, position := 0, done := false } := by
  have hd : w.durations = p.toNat :: rest.map BitVec.toNat := by rw [Waveform.durations, hw, List.map_cons]
  simp only [Tape.start, h, hd]

theorem Tape.start_of_nil {t : Tape} {w : Waveform} (h : t.source = some w) (hw : w.pulses = []) (now : Nat) :
    t.start now =
      { t with playing := false, cursor := 0, earLevel := w.initialLevel, remaining := 0, position := 0, done := true } := by
  have hd : w.durations = [] := by rw [Waveform.durations, hw, List.map_nil]
  simp only [Tape.start, h, hd]

theorem Tape.rewind_of_some {t : Tape} {w : Waveform} (h : t.source = some w) :
    t.rewind = { Tape.reset (some w) with nextTransition := t.nextTransition } := by
  simp only [Tape.rewind, h, Tape.reset]

theorem Tape.pause_of_standing {t : Tape} (h : t.playing = false) (now : Nat) : t.pause now = t := by
  unfold Tape.pause
  split
  · rfl
  · simp [h]

theorem Tape.pause_of_playing {t : Tape} {w : Waveform} (hs : t.source = some w) (h : t.playing = true) (now : Nat) :
    t.pause now =
      if (t.update now).playing then
        { t.update now with playing := false, remaining := (t.update now).nextTransition - now }
      else t.update now := by
  simp [Tape.pause, hs, h]

theorem Tape.pause_at_end {t : Tape} {now : Nat} (h : t.playing = true) (hend : (t.update now).playing = false) :
    t.pause now = t.update now := by
  cases hs : t.source with
  | none => simp only [Tape.pause, Tape.update, hs]
  | some w => simp [Tape.pause_of_playing hs h, hend]

/-- After an update the next transition of a tape that still plays lies ahead (rule R480). -/
theorem Tape.update_ahead {t : Tape} {now : Nat} {w : Waveform} (hs : t.source = some w)
    (h : (t.update now).playing = true) : now < (t.update now).nextTransition := by
  have hsettled := Tape.advance_settled (w := w) (now := now) (fuel := w.pulses.length + 1) (t := t) (by omega)
  rw [Tape.update_eq hs] at h ⊢
  exact Nat.lt_of_not_le fun hle => hsettled ⟨h, hle⟩

theorem Tape.resume_of_paused {t : Tape} (hs : t.source.isSome = true) (hp : t.playing = false) (hd : t.done = false)
    (hr : 0 < t.remaining) (now : Nat) :
    t.resume now = { t with playing := true, nextTransition := now + t.remaining, remaining := 0 } := by
  obtain ⟨w, hw⟩ := Option.isSome_iff_exists.mp hs
  simp [Tape.resume, hw, hp, hd, hr]

theorem Tape.resume_of_not_paused {t : Tape} (h : t.playing = true ∨ t.done = true ∨ t.remaining = 0) (now : Nat) :
    t.resume now = t := by
  unfold Tape.resume
  split
  · rfl
  · rcases h with h | h | h <;> simp [h]

theorem Tape.resume_pause {t : Tape} {now : Nat} (hs : t.source.isSome = true) (hp : t.playing = true)
    (hr : t.remaining = 0) (hd : t.done = false) (hu : t.update now = t) : (t.pause now).resume now = t := by
  obtain ⟨w, hw⟩ := Option.isSome_iff_exists.mp hs
  have hahead : now < t.nextTransition := by
    have := Tape.update_ahead (now := now) hw (by rw [hu]; exact hp)
    rwa [hu] at this
  have hpause : t.pause now = { t with playing := false, remaining := t.nextTransition - now } := by
    rw [Tape.pause_of_playing hw hp, hu, if_pos hp]
  rw [hpause, Tape.resume_of_paused (t := { t with playing := false, remaining := t.nextTransition - now }) hs rfl hd
    (Nat.sub_pos_of_lt hahead)]
  dsimp only
  rw [Nat.add_sub_of_le hahead.le, ← hp, ← hr]

/-! ## Seek (rule R479) -/

theorem Tape.seek_not_wav {t : Tape} {w : Waveform} (hs : t.source = some w) (h : w.origin ≠ .wav) (at_ : Nat) :
    t.seek at_ = none := by
  unfold Tape.seek
  simp only [hs]

theorem Tape.seek_end {t : Tape} {w : Waveform} (hs : t.source = some w) (h : w.origin = .wav) {at_ : Nat}
    (hat : w.durations.sum ≤ at_) :
    t.seek at_ = some { t with
      cursor := w.pulses.length, playing := false, done := true, remaining := 0,
      earLevel := w.initialLevel ^^ decide (w.pulses.length % 2 = 1), position := w.durations.sum } := by
  have hcum : w.cum w.pulses.length = w.durations.sum := by
    rw [Waveform.cum, ← w.durations_length, List.take_length]
  simp only [Tape.seek, hs, h, findPulse_end (ps := w.durations) (k := 0) (before := 0) hat, hcum, Waveform.levelAt]

theorem Tape.seek_inside {t : Tape} {w : Waveform} (hs : t.source = some w) (h : w.origin = .wav) {at_ k : Nat}
    (lo : (w.durations.take k).sum ≤ at_) (hi : at_ < (w.durations.take (k + 1)).sum) :
    t.seek at_ = some { t with
      cursor := k, playing := false, done := false, remaining := (w.durations.take (k + 1)).sum - at_,
      earLevel := w.initialLevel ^^ decide (k % 2 = 1), position := at_ } := by
  simp only [Tape.seek, hs, h, findPulse_inside (ps := w.durations) (k := 0) (before := 0) lo hi, Waveform.levelAt,
    Nat.zero_add]

/-- Settles O55: each control by its cases, and as a request by the action it is. -/
theorem tapeControls : Obligations.TapeControls := by
  refine ⟨fun t now h => ?_, fun t w now p rest hs hw => Tape.start_of_cons hs hw now,
    fun t w now hs hw => Tape.start_of_nil hs hw now, fun t w => Tape.rewind_of_some, fun t w now hs hp hu => ?_,
    fun t now later hs hp hd hr => ⟨Tape.resume_of_paused hs hp hd hr later, Tape.pause_of_standing hp now⟩,
    fun t now => Tape.resume_pause, fun t now h => Tape.pause_of_standing h now, fun t now => Tape.pause_at_end,
    fun t now h => Tape.resume_of_not_paused h now, fun s running => ?_⟩
  · exact ⟨by simp only [Tape.start, h], by simp only [Tape.pause, h], by simp only [Tape.resume, h],
      by simp only [Tape.rewind, h], Tape.update_of_none h now⟩
  · rw [Tape.pause_of_playing hs hp, if_pos hu]
    exact ⟨rfl, Nat.sub_pos_of_lt (Tape.update_ahead hs hu)⟩
  · have seek : ∀ {at_ : Nat} {tape : Tape}, s.tape.seek at_ = some tape →
        RequestDone (.tapeSeek at_) s { s with tape := tape } := fun h => by
      simp only [requestDone_iff running, State.act, State.tapeSeek, h]
      rfl
    refine ⟨(requestDone_iff running).mpr rfl, (requestDone_iff running).mpr rfl, (requestDone_iff running).mpr rfl,
      (requestDone_iff running).mpr rfl, fun at_ => ⟨fun hs => seek (by simp only [Tape.seek, hs]), fun w hs => ⟨fun h => ?_,
        fun h hat => seek (Tape.seek_end hs h hat), fun k h lo hi => seek (Tape.seek_inside hs h lo hi)⟩⟩⟩
    simp only [requestRefused_iff running, State.act, State.tapeSeek, Tape.seek_not_wav hs h]
    rfl

end Sys2Proof.Machine
end

section
/-! Capture: how a session starts, what the recorder hears, and what it renders (rules R500 .. R507, R520, R550). -/

namespace Sys2Proof.Machine

/-! ## Rendering (rule R507) -/

theorem renderPulses_eq_runsOf (c : MachineConfig) (level : Bool) (pulses : List Nat) :
    renderPulses c level pulses = runsOf (recSample c) level (pulses.map (samplesOf c)) := by
  induction pulses generalizing level with
  | nil => rfl
  | cons d rest ih => rw [renderPulses, ih, List.map_cons, runsOf_cons]

/-! ## Capture (rules R504 .. R506) -/

theorem Recorder.micEvent_off {r : Recorder} (h : r.enabled = false) (t : Nat) (l : Bool) : r.micEvent t l = r := by
  simp [Recorder.micEvent, h]

theorem Recorder.micEvent_first {r : Recorder} (h : r.enabled = true) (hb : r.blockActive = false) (t : Nat) (l : Bool) :
    r.micEvent t l = { r with blockActive := true, blockStartLevel := l, lastLevel := l, lastTransitionT := t } := by
  simp [Recorder.micEvent, h, hb]

theorem Recorder.micEvent_later {r : Recorder} (h : r.enabled = true) (hb : r.blockActive = true) (t : Nat) (l : Bool) :
    r.micEvent t l =
      if l = r.lastLevel then r
      else { r with pendingPulses := r.pendingPulses ++ [t - r.lastTransitionT], lastLevel := l, lastTransitionT := t } := by
  simp [Recorder.micEvent, h, hb]

theorem Recorder.decodeTried_iff (r : Recorder) :
    r.decodeTried = true ↔ r.format = .tap ∧ 100 ≤ r.pendingPulses.length := by
  rw [Recorder.decodeTried, Bool.and_eq_true, decide_eq_true_iff, decide_eq_true_iff]
  rfl

/-- The block a finalized one is decoded to, if any. -/
def Recorder.decoded (r : Recorder) : List Block :=
  if r.format = .tap ∧ 100 ≤ r.pendingPulses.length then
    ((decodePulses r.pendingPulses).map (fun v => ({ data := v, pauseMs := 0#32 } : Block))).toList
  else []

/-- Whether a finalized block is dropped with a warning: 1 or 0. -/
def Recorder.dropped (r : Recorder) : Nat :=
  if r.format = .tap ∧ 100 ≤ r.pendingPulses.length ∧ decodePulses r.pendingPulses = none then 1 else 0

theorem Recorder.finalize_eq (c : MachineConfig) (r : Recorder) (idle : Nat) :
    r.finalize c idle =
      { r with
        audioBuf := r.audioBuf ++ renderPulses c r.blockStartLevel r.pendingPulses ++
          List.replicate (samplesOf c idle) (recSample c r.lastLevel)
        tapBlocks := r.tapBlocks ++ r.decoded
        pendingPulses := []
        blockActive := false
        sessionDirty := true
        warnings := r.warnings + r.dropped } := by
  unfold Recorder.finalize Recorder.decoded Recorder.dropped
  dsimp only
  by_cases ht : r.format = .tap ∧ 100 ≤ r.pendingPulses.length
  · rw [if_pos (r.decodeTried_iff.mpr ht), if_pos ht]
    cases decodePulses r.pendingPulses <;> simp [ht]
  · rw [if_neg (mt r.decodeTried_iff.mp ht), if_neg ht, if_neg (fun h => ht ⟨h.1, h.2.1⟩)]
    simp

theorem Recorder.update_eq (c : MachineConfig) (r : Recorder) (now : Nat) (force : Bool) :
    r.update c now force =
      if r.enabled = true ∧ r.blockActive = true ∧ (force = true ∨ 350000 < now - r.lastTransitionT) then
        r.finalize c (now - r.lastTransitionT)
      else r := by
  simp only [Recorder.update, Bool.and_eq_true, Bool.or_eq_true, decide_eq_true_iff, and_assoc]
  rfl

/-! ## Sessions (rules R500 .. R503, R520) -/

section
variable {c : MachineConfig} {disk : Disk} {r : Recorder}

theorem Recorder.start_recording (position : Nat) (h : r.enabled = true) :
    r.start c disk position = .error .tapeStateConflict := by
  simp [Recorder.start, h]

theorem Recorder.start_none (position : Nat) (h : c.recorderOutputFormat = .none) :
    r.start c disk position = .error .tapeStateConflict := by
  simp [Recorder.start, h]

theorem Recorder.start_tap (position : Nat) (he : r.enabled = false) (h : c.recorderOutputFormat = .tap) :
    r.start c disk position = .ok (newSession r .tap false r.wavExisting r.wavPrefixSamples) := by
  simp [Recorder.start, he, h, Recorder.fresh_eq]

theorem Recorder.startAppend_recording (h : r.enabled = true) : r.startAppend c disk = .error .tapeStateConflict := by
  simp [Recorder.startAppend, h]

theorem Recorder.startAppend_not_wav (h : c.recorderOutputFormat ≠ .wav) :
    r.startAppend c disk = .error .tapeStateConflict := by
  unfold Recorder.startAppend
  split
  · rfl
  · split
    next hw => exact absurd hw h
    next => rfl

/-! With a WAV destination both starts go by the file: none, one that cannot be read, one that is no WAV file of this
recorder's, or one that is. -/

section
variable (he : r.enabled = false) (h : c.recorderOutputFormat = .wav)
include he h

theorem Recorder.start_no_file (hd : disk.recorderOutput = none) :
    (∀ position, r.start c disk position = .ok (newSession r .wav false none 0)) ∧
      r.startAppend c disk = .ok (newSession r .wav true none 0) := by
  simp [Recorder.start, Recorder.startAppend, he, h, hd, Recorder.fresh_eq]

theorem Recorder.start_unreadable {file : List Byte} (hd : disk.recorderOutput = some file)
    (hr : disk.readable = false) :
    (∀ position, r.start c disk position = .error .tapeIo) ∧ r.startAppend c disk = .error .tapeIo := by
  simp [Recorder.start, Recorder.startAppend, he, h, hd, hr]

theorem Recorder.start_other_file {file : List Byte} (hd : disk.recorderOutput = some file)
    (hr : disk.readable = true) (hw : existingWav c file = none) :
    (∀ position, r.start c disk position = .ok (newSession r .wav false none 0)) ∧
      r.startAppend c disk = .error .tapeStateConflict := by
  simp [Recorder.start, Recorder.startAppend, he, h, hd, hr, hw, Recorder.fresh_eq]

theorem Recorder.start_own_file {file : List Byte} {w : WavFile} (hd : disk.recorderOutput = some file)
    (hr : disk.readable = true) (hw : existingWav c file = some w) :
    (∀ position, r.start c disk position =
        .ok (newSession r .wav false (some file) (min (w.data.length / 2) (samplesOf c position)))) ∧
      r.startAppend c disk = .ok (newSession r .wav true (some file) (w.data.length / 2)) := by
  simp [Recorder.start, Recorder.startAppend, he, h, hd, hr, hw, Recorder.fresh_eq, WavFile.sampleCount]

end

end

theorem recordStart_done {s : State} {r : Recorder} (running : s.running)
    (h : s.recorder.start s.config s.disk s.tape.position = .ok r) :
    RequestDone .recordStart s { s with recorder := r } := by
  simp only [requestDone_iff running, State.act, h]
  rfl

theorem recordStart_refused {s : State} {e : HostError} (running : s.running)
    (h : s.recorder.start s.config s.disk s.tape.position = .error e) :
    RequestRefused .recordStart s (recorderError s.config e) := by
  simp only [requestRefused_iff running, State.act, h]
  rfl

theorem recordStartAppend_done {s : State} {r : Recorder} (running : s.running)
    (h : s.recorder.startAppend s.config s.disk = .ok r) : RequestDone .recordStartAppend s { s with recorder := r } := by
  simp only [requestDone_iff running, State.act, h]
  rfl

theorem recordStartAppend_refused {s : State} {e : HostError} (running : s.running)
    (h : s.recorder.startAppend s.config s.disk = .error e) :
    RequestRefused .recordStartAppend s (recorderError s.config e) := by
  simp only [requestRefused_iff running, State.act, h]
  rfl

/-- Settles O58: the recorder's operations by their cases, and the two starts as the requests they are. -/
theorem recorderCapture : Obligations.RecorderCapture := by
  refine ⟨fun r t l h => Recorder.micEvent_off h t l, fun r t l h hb => Recorder.micEvent_first h hb t l,
    fun r t l h hb => Recorder.micEvent_later h hb t l, fun c r now force => ?_, renderPulses_eq_runsOf,
    fun s running => ⟨fun he => ⟨?_, ?_⟩, fun hw => ?_, fun hn => ?_, fun he ht => ?_, fun he hw =>
      ⟨fun hd => ⟨?_, ?_⟩, fun file hd hr => ⟨?_, ?_⟩, fun file hd hr hx => ⟨?_, ?_⟩, fun file w hd hr hx => ⟨?_, ?_⟩⟩⟩⟩
  · rw [Recorder.update_eq, Recorder.finalize_eq]
    rfl
  · exact recordStart_refused running (Recorder.start_recording _ he)
  · exact recordStartAppend_refused running (Recorder.startAppend_recording he)
  · exact recordStartAppend_refused running (Recorder.startAppend_not_wav hw)
  · exact recordStart_refused running (Recorder.start_none _ hn)
  · exact recordStart_done running (Recorder.start_tap _ he ht)
  · exact recordStart_done running ((Recorder.start_no_file he hw hd).1 _)
  · exact recordStartAppend_done running (Recorder.start_no_file he hw hd).2
  · exact recordStart_refused running ((Recorder.start_unreadable he hw hd hr).1 _)
  · exact recordStartAppend_refused running (Recorder.start_unreadable he hw hd hr).2
  · exact recordStart_done running ((Recorder.start_other_file he hw hd hr hx).1 _)
  · exact recordStartAppend_refused running (Recorder.start_other_file he hw hd hr hx).2
  · exact recordStart_done running ((Recorder.start_own_file he hw hd hr hx).1 _)
  · exact recordStartAppend_done running (Recorder.start_own_file he hw hd hr hx).2

end Sys2Proof.Machine
end

section
/-! Boot: start-up with the ROM image and the configured tape, and shutdown (rules R460, R548 .. R550). -/

namespace Sys2Proof.Machine

/-! ## The image in memory (rules R63, R548) -/

/-- Reading after bytes were put at `a` and on, none of them past the end of memory. -/
theorem Memory.get_putBytes : ∀ {bs : List Byte} {m : Memory} {a : Word}, m.wf = true → a.toNat + bs.length < 65536 →
    ∀ x, (m.putBytes a bs).get x = if a.toNat ≤ x then (bs[x - a.toNat]?).getD (m.get x) else m.get x
  | [], _, _, _, _, _ => by simp [Memory.putBytes]
  | v :: rest, m, a, hm, hlen, x => by
    rw [List.length_cons] at hlen
    have ha : (a + 1#16).toNat = a.toNat + 1 := by bv_omega
    rw [Memory.putBytes, Memory.get_putBytes (Memory.put_wf v a.isLt hm) (by omega), ha, Memory.get_put hm]
    rcases Nat.lt_trichotomy x a.toNat with h | h | h
    · rw [if_neg (by omega), if_neg (by omega), if_neg (by omega)]
    · subst h
      simp
    · obtain ⟨k, rfl⟩ : ∃ k, x = a.toNat + (k + 1) := ⟨x - a.toNat - 1, by omega⟩
      have h1 : a.toNat + (k + 1) - (a.toNat + 1) = k := by omega
      rw [if_pos (by omega), if_neg (by omega), if_pos (by omega), h1, Nat.add_sub_cancel_left, List.getElem?_cons_succ]

/-! ## The loaded tape (rules R44, R460) -/

theorem bytePulses_pos (v : Byte) : ∀ d ∈ bytePulses v, 1 ≤ d := by
  intro d hd
  rw [bytePulses_eq] at hd
  obtain ⟨x, -, hx⟩ := List.mem_flatMap.mp hd
  have hx' : ∀ x : Bool, ∀ d ∈ bitPulses x, 1 ≤ d := by decide
  exact hx' x d hx

theorem expandBlocks_pos : ∀ {bs : List Block} {ext d : Nat}, d ∈ expandBlocks ext bs → 1 ≤ d
  | [], ext, d, hd => by
    rw [expandBlocks] at hd
    split at hd
    · rwa [List.mem_singleton.mp hd]
    · cases hd
  | b :: bs, ext, d, hd => by
    simp only [expandBlocks, Block.pulses, Config.pilotT, Config.sync1T, Config.sync2T, List.mem_append, List.mem_cons,
      List.mem_replicate, List.mem_flatMap, List.not_mem_nil, or_false] at hd
    rcases hd with (((rfl | ⟨-, rfl⟩) | rfl | rfl) | ⟨v, -, hv⟩) | hd
    · omega
    · omega
    · omega
    · omega
    · exact bytePulses_pos v d hv
    · exact expandBlocks_pos hd

theorem runPulses_pos {rate : Nat} : ∀ {signs : List Bool} {lvl : Bool} {n d : Nat}, d ∈ runPulses rate lvl n signs → 1 ≤ d
  | [], _, _, _, hd => List.mem_singleton.mp hd ▸ le_max_left ..
  | s :: rest, lvl, n, d, hd => by
    rw [runPulses] at hd
    split at hd
    · exact runPulses_pos hd
    · rcases List.mem_cons.mp hd with rfl | hd
      · exact le_max_left ..
      · exact runPulses_pos hd

/-- Every pulse of the waveform lasts (rule R44). -/
def Waveform.Lasting (w : Waveform) : Prop := ∀ p ∈ w.pulses, p ≠ 0#32

theorem ne_zero_of_mem_map_pulseOf {ds : List Nat} (h : ∀ d ∈ ds, 1 ≤ d) : ∀ p ∈ ds.map pulseOf, p ≠ 0#32 := by
  intro p hp
  obtain ⟨d, hd, rfl⟩ := List.mem_map.mp hp
  exact pulseOf_ne_zero (h d hd)

theorem blocksWaveform_lasting (origin : Origin) (bs : List Block) : (blocksWaveform origin bs).Lasting :=
  ne_zero_of_mem_map_pulseOf fun _ => expandBlocks_pos

theorem WavFile.waveform_lasting (w : WavFile) : w.waveform.Lasting := by
  unfold WavFile.waveform
  split
  · nofun
  · exact ne_zero_of_mem_map_pulseOf fun _ => runPulses_pos

theorem parseTape_lasting {format : TapeFormat} {file : List Byte} {w : Waveform}
    (h : parseTape format file = .ok (some w)) : w.Lasting := by
  unfold parseTape at h
  split at h
  · cases h
  · split at h <;> cases h
    exact blocksWaveform_lasting _ _
  · split at h <;> cases h
    exact blocksWaveform_lasting _ _
  · split at h <;> cases h
    exact WavFile.waveform_lasting _

theorem loadTape_no_format {c : MachineConfig} (h : c.tapeInputFormat = .none) (disk : Disk) :
    loadTape c disk = .ok none := by
  simp only [loadTape, h]

theorem loadTape_unreadable {c : MachineConfig} {disk : Disk} (h : c.tapeInputFormat ≠ .none)
    (hd : disk.tapeInput = none ∨ disk.readable = false) : loadTape c disk = .error .tapeIo := by
  unfold loadTape
  split
  · contradiction
  · split
    next file hfile => simp_all
    next => rfl

theorem loadTape_readable {c : MachineConfig} {disk : Disk} {file : List Byte} (h : c.tapeInputFormat ≠ .none)
    (hd : disk.tapeInput = some file) (hr : disk.readable = true) :
    loadTape c disk = parseTape c.tapeInputFormat file := by
  unfold loadTape
  split
  · contradiction
  · simp [hd, hr]

theorem loadTape_lasting {c : MachineConfig} {disk : Disk} {w : Waveform} (h : loadTape c disk = .ok (some w)) :
    w.Lasting := by
  unfold loadTape at h
  split at h
  · cases h
  · split at h
    · split at h
      · exact parseTape_lasting h
      · cases h
    · cases h

/-! ## Start-up (rule R548) -/

/-- The tape a loading ends in: none when it failed. -/
def loadedTape (c : MachineConfig) (disk : Disk) : Option Waveform :=
  match loadTape c disk with
  | .ok source => source
  | .error _ => none

theorem loadedTape_lasting {c : MachineConfig} {disk : Disk} {w : Waveform} (h : loadedTape c disk = some w) :
    w.Lasting := by
  unfold loadedTape at h
  split at h
  next source hs => exact loadTape_lasting (hs.trans (congrArg _ h))
  next => cases h

/-- The reset state with a memory of canonical form and a tape of lasting pulses keeps the invariant. -/
theorem inv_reset_with {m : Memory} (hm : m.wf = true) {source : Option Waveform} (hp : ∀ w, source = some w → w.Lasting)
    (c : MachineConfig) (disk : Disk) (audio : Bool) (errors : List ErrorMessage) :
    ({ State.reset with mem := m, config := c, disk := disk, tape := Tape.reset source, audioOpen := audio,
                        errorStream := errors } : State).Inv :=
  { inv_reset with
    mem := hm
    tape := fun _ _ => ⟨Nat.zero_le _, nofun, fun _ h => absurd h (Nat.lt_irrefl 0)⟩
    pulses := hp
    noTape := fun _ => rfl }

theorem boot_ok {rom : List Byte} (h : rom.length = 16384) (c : MachineConfig) (disk : Disk) (audio : Bool) :
    ∃ s : State, State.boot c rom disk audio = .ok s ∧
      s = { State.reset with
            mem := Memory.putBytes [] 0#16 rom
            config := c
            disk := disk
            tape := Tape.reset (loadedTape c disk)
            audioOpen := audio
            errorStream :=
              (match loadTape c disk with
                | .ok _ => []
                | .error e => [tapeError c e]) ++ (if audio then [] else [audioError]) } := by
  exact ⟨_, if_neg (not_not.mpr h), rfl⟩

theorem read8_image {s : State} {rom : List Byte} (hm : s.mem = Memory.putBytes [] 0#16 rom) (h : rom.length = 16384)
    (x : Word) : s.read8 x = (rom[x.toNat]?).getD Memory.unlisted := by
  have from_zero : (0#16).toNat ≤ x.toNat := Nat.zero_le _
  rw [State.read8, hm, Memory.get_putBytes rfl (by rw [h]; decide), if_pos from_zero]
  rfl

/-! ## Shutdown (rule R549) -/

theorem Tape.Ok.pause_playing {t : Tape} (h : t.Ok) (now : Nat) : (t.pause now).playing = false := by
  cases hp : t.playing with
  | false => rw [Tape.pause_of_standing hp, hp]
  | true =>
    cases hs : t.source with
    | none => simp [Tape.Ok, hs, hp] at h
    | some w =>
      rw [Tape.pause_of_playing hs hp]
      split
      · rfl
      next hu => simpa using hu

theorem shutdownNow_idle {s : State} (h : s.recorder.enabled = false) :
    s.shutdownNow =
      { s with tape := s.tape.pause s.clock, audioOpen := false, shutDown := true, hostReply := none } := by
  simp [State.shutdownNow, h, State.accept]

theorem shutdownNow_recording {s : State} (h : s.recorder.enabled = true) :
    s.shutdownNow =
      { s.recordStop with tape := s.tape.pause s.clock, audioOpen := false, shutDown := true } := by
  have htape : s.recordStop.tape = s.tape := by rw [State.recordStop_frame]
  have hclock : s.recordStop.clock = s.clock := by rw [State.recordStop_frame]
  rw [State.shutdownNow, if_pos h]
  simp only [htape, hclock]

/-- What shutdown leaves, with a session or without. -/
theorem shutdownNow_leaves (s : State) :
    s.shutdownNow.recorder.enabled = false ∧ s.shutdownNow.tape = s.tape.pause s.clock ∧ s.shutdownNow.audioOpen = false ∧
      s.shutdownNow.cpu = s.cpu ∧ s.shutdownNow.mem = s.mem ∧ s.shutdownNow.shutDown = true := by
  cases h : s.recorder.enabled with
  | false => rw [shutdownNow_idle h]; exact ⟨h, rfl, rfl, rfl, rfl, rfl⟩
  | true =>
    rw [shutdownNow_recording h]
    refine ⟨s.recordStop_enabled, rfl, rfl, ?_, ?_, rfl⟩ <;> rw [State.recordStop_frame]

/-- Settles O60: the image by reading back what was put, the tape by how it was loaded, shutdown by what it leaves. -/
theorem bootAndShutdown : Obligations.BootAndShutdown := by
  refine ⟨fun c rom disk audio h => if_pos h, fun c rom disk audio h => ?_,
    fun c disk => ⟨fun hn => loadTape_no_format hn disk, loadTape_unreadable, fun file => loadTape_readable⟩,
    fun s t running ht => ?_⟩
  · obtain ⟨s, hboot, hs⟩ := boot_ok h c disk audio
    have hmem : s.mem = Memory.putBytes [] 0#16 rom := by rw [hs]
    refine ⟨s, hboot, fun k hk => ?_, fun x hx => ?_, ?_, ?_⟩
    · have hk' : (BitVec.ofNat 16 k).toNat = k := by rw [BitVec.toNat_ofNat]; omega
      rw [read8_image hmem h, hk', List.getElem?_eq_getElem (by omega)]
      rfl
    · rw [read8_image hmem h, List.getElem?_eq_none (by omega)]
      rfl
    · rw [hmem]
      exact hs
    · rw [hs]
      exact inv_reset_with (Memory.putBytes_wf rom 0#16 rfl) (fun _ => loadedTape_lasting) ..
  · cases (requestAnswers_iff running).mp ht
    obtain ⟨henabled, htape, haudio, hcpu, hmem, hdown⟩ := shutdownNow_leaves s
    refine ⟨fun h => shutdownNow_idle h, fun h u hu => ?_, henabled, fun hinv => ?_, haudio, hcpu, hmem, ?_⟩
    · cases (requestAnswers_iff running).mp hu
      exact shutdownNow_recording h
    · rw [htape]
      exact hinv.tapeOk.pause_playing _
    · simp [step, hdown]

end Sys2Proof.Machine
end

section
/-! WavChunks: WAV files as sequences of chunks, and what the parser makes of each (rule R463). -/

namespace Sys2Proof.Machine

/-! ## Numbers in files -/

theorem length_leBytes (k n : Nat) : (leBytes k n).length = k := by
  induction k generalizing n with
  | zero => rfl
  | succ k ih => rw [leBytes, List.length_cons, ih]

theorem leNat_leBytes (k n : Nat) : leNat (leBytes k n) = n % 256 ^ k := by
  induction k generalizing n with
  | zero => rw [leBytes, leNat, Nat.pow_zero, Nat.mod_one]
  | succ k ih =>
    have hlow : (BitVec.ofNat 8 n).toNat = n % 256 := BitVec.toNat_ofNat ..
    rw [leBytes, leNat, ih, hlow, Nat.pow_succ', Nat.mod_mul]

theorem length_u32Field (n : Nat) : (u32Field n).length = 4 := length_leBytes ..

theorem u32Field_of_lt {n : Nat} (h : n < 2 ^ 32) : u32Field n = leBytes 4 n := by rw [u32Field, if_pos h]

theorem leNat_u32Field {n : Nat} (h : n < 2 ^ 32) : leNat (u32Field n) = n := by
  rw [u32Field_of_lt h, leNat_leBytes, Nat.mod_eq_of_lt (by omega)]

/-! ## Chunks -/

/-- A chunk's id, size field and bytes, the pad byte among them. -/
structure IsChunk (tag size body : List Byte) : Prop where
  tag_length : tag.length = 4
  size_length : size.length = 4
  body_length : body.length = leNat size + leNat size % 2

/-- The parser's way through one chunk. -/
theorem wavChunks_cons {tag size body : List Byte} (h : IsChunk tag size body) (fuel at_ : Nat) (rest : List Byte)
    (fmt : Option WavFormat) (found : Option WavFile) :
    wavChunks (fuel + 1) at_ (tag ++ (size ++ (body ++ rest))) fmt found =
      if tag = tagFmt then
        if fmt.isSome ∨ leNat size < 16 ∨ (readWavFormat (body.take (leNat size))).accepted = false then .error parseError
        else wavChunks fuel (at_ + 8 + body.length) rest (some (readWavFormat (body.take (leNat size)))) found
      else if tag = tagData then
        match fmt, found with
        | some f, none =>
          wavChunks fuel (at_ + 8 + body.length) rest fmt
            (some { format := f, data := body.take (leNat size), dataOffset := at_ + 8, dataIsLast := rest.isEmpty })
        | _, _ => .error parseError
      else wavChunks fuel (at_ + 8 + body.length) rest fmt found := by
  obtain ⟨htag, hsize, hbody⟩ := h
  generalize hc : tag ++ (size ++ (body ++ rest)) = chunk
  have hlen : chunk.length = 8 + (body.length + rest.length) := by
    simp only [← hc, List.length_append, htag, hsize]
    omega
  have htake : chunk.take 4 = tag := by rw [← hc, List.take_left' htag]
  have hdrop4 : chunk.drop 4 = size ++ (body ++ rest) := by rw [← hc, List.drop_left' htag]
  have hdrop8 : chunk.drop 8 = body ++ rest := by
    rw [← List.drop_drop (i := 4) (j := 4), hdrop4, List.drop_left' hsize]
  obtain ⟨a, l, rfl⟩ : ∃ a l, chunk = a :: l := List.exists_cons_of_ne_nil (by rintro rfl; simp at hlen; omega)
  have hdata : (body ++ rest).take (leNat size) = body.take (leNat size) := List.take_append_of_le_length (by omega)
  rw [wavChunks, htake, hdrop4, hdrop8, List.take_left' hsize, ← hbody, List.drop_left]
  · dsimp only
    rw [if_neg (by rw [hlen, List.length_append]; omega), hdata] <;> rfl
  · nofun
  · nofun

/-- The file from some offset on begins with a chunk. -/
structure ChunkAt (chunks tag size body rest : List Byte) : Prop extends IsChunk tag size body where
  eq : chunks = tag ++ (size ++ (body ++ rest))

/-- Eight bytes and as many as they announce are a chunk. -/
theorem chunkAt_of_le {chunks : List Byte} (h8 : 8 ≤ chunks.length)
    (h : leNat ((chunks.drop 4).take 4) + leNat ((chunks.drop 4).take 4) % 2 ≤ (chunks.drop 8).length) :
    ∃ tag size body rest, ChunkAt chunks tag size body rest := by
  generalize hn : leNat ((chunks.drop 4).take 4) + leNat ((chunks.drop 4).take 4) % 2 = n at h
  refine ⟨chunks.take 4, (chunks.drop 4).take 4, (chunks.drop 8).take n, (chunks.drop 8).drop n,
    ⟨?_, ?_, (List.length_take_of_le h).trans hn.symm⟩, ?_⟩
  · rw [List.length_take]; omega
  · rw [List.length_take, List.length_drop]; omega
  · rw [List.take_append_drop, ← List.drop_drop (i := 4) (j := 4), List.take_append_drop, List.take_append_drop]

/-- A file the parser takes ends here, or goes on with a whole chunk. -/
theorem wavChunks_ok {fuel at_ : Nat} {chunks : List Byte} {fmt : Option WavFormat} {found : Option WavFile} {w : WavFile}
    (h : wavChunks fuel at_ chunks fmt found = .ok w) :
    chunks = [] ∧ found = some w ∨
      ∃ fuel' tag size body rest, fuel = fuel' + 1 ∧ ChunkAt chunks tag size body rest := by
  cases chunks with
  | nil =>
    cases found with
    | none => cases fuel <;> cases h
    | some v => cases fuel <;> cases h <;> exact .inl ⟨rfl, rfl⟩
  | cons a l =>
    right
    cases fuel with
    | zero => cases h
    | succ fuel =>
      rw [wavChunks] at h
      · dsimp only at h
        split at h
        · cases h
        next hlen =>
          rw [not_or, Nat.not_lt, Nat.not_lt] at hlen
          obtain ⟨tag, size, body, rest, hc⟩ := chunkAt_of_le hlen.1 hlen.2
          exact ⟨fuel, tag, size, body, rest, rfl, hc⟩
      · nofun
      · nofun

/-- What the parser takes, chunk by chunk: the end, a format, the data, or another chunk, and then the rest. -/
inductive WavParses : Nat → List Byte → Option WavFormat → Option WavFile → WavFile → Prop where
  | done (at_ : Nat) (fmt : Option WavFormat) (w : WavFile) : WavParses at_ [] fmt (some w) w
  | format {at_ : Nat} {chunks size body rest : List Byte} {found : Option WavFile} {w : WavFile}
      (chunk : ChunkAt chunks tagFmt size body rest) (long : 16 ≤ leNat size)
      (accepted : (readWavFormat (body.take (leNat size))).accepted = true)
      (next : WavParses (at_ + 8 + body.length) rest (some (readWavFormat (body.take (leNat size)))) found w) :
      WavParses at_ chunks none found w
  | data {at_ : Nat} {chunks size body rest : List Byte} {f : WavFormat} {w : WavFile}
      (chunk : ChunkAt chunks tagData size body rest)
      (next : WavParses (at_ + 8 + body.length) rest (some f)
        (some { format := f, data := body.take (leNat size), dataOffset := at_ + 8, dataIsLast := rest.isEmpty }) w) :
      WavParses at_ chunks (some f) none w
  | other {at_ : Nat} {chunks tag size body rest : List Byte} {fmt : Option WavFormat} {found : Option WavFile} {w : WavFile}
      (chunk : ChunkAt chunks tag size body rest) (noFmt : tag ≠ tagFmt) (noData : tag ≠ tagData)
      (next : WavParses (at_ + 8 + body.length) rest fmt found w) : WavParses at_ chunks fmt found w

theorem wavParses_of_ok : ∀ {fuel at_ : Nat} {chunks : List Byte} {fmt : Option WavFormat} {found : Option WavFile}
    {w : WavFile}, wavChunks fuel at_ chunks fmt found = .ok w → WavParses at_ chunks fmt found w := by
  intro fuel
  induction fuel with
  | zero =>
    intro at_ chunks fmt found w h
    obtain ⟨rfl, rfl⟩ | ⟨_, _, _, _, _, hfuel, _⟩ := wavChunks_ok h
    · exact .done ..
    · cases hfuel
  | succ fuel ih =>
    intro at_ chunks fmt found w h
    obtain ⟨rfl, rfl⟩ | ⟨_, tag, size, body, rest, hfuel, hc⟩ := wavChunks_ok h
    · exact .done ..
    · cases hfuel
      rw [hc.eq, wavChunks_cons hc.toIsChunk] at h
      by_cases hf : tag = tagFmt
      · subst hf
        rw [if_pos rfl] at h
        split at h
        · cases h
        next hno =>
          simp only [not_or, Bool.not_eq_true, Option.isSome_eq_false_iff, Option.isNone_iff_eq_none, Nat.not_lt,
            Bool.not_eq_false] at hno
          obtain ⟨rfl, hlong, haccepted⟩ := hno
          exact .format hc hlong haccepted (ih h)
      · rw [if_neg hf] at h
        by_cases hd : tag = tagData
        · subst hd
          rw [if_pos rfl] at h
          split at h
          · exact .data hc (ih h)
          · cases h
        · rw [if_neg hd] at h
          exact .other hc hf hd (ih h)

theorem ChunkAt.length {chunks tag size body rest : List Byte} (h : ChunkAt chunks tag size body rest) :
    chunks.length = 8 + body.length + rest.length := by
  simp only [h.eq, List.length_append, h.tag_length, h.size_length]
  omega

theorem tagData_ne_tagFmt : tagData ≠ tagFmt := by decide

/-- A step of fuel a chunk is enough, and every chunk has bytes. -/
theorem ok_of_wavParses {at_ : Nat} {chunks : List Byte} {fmt : Option WavFormat} {found : Option WavFile} {w : WavFile}
    (h : WavParses at_ chunks fmt found w) : ∀ {fuel : Nat}, chunks.length ≤ fuel →
      wavChunks fuel at_ chunks fmt found = .ok w := by
  induction h with
  | done => intro fuel _; cases fuel <;> rfl
  | format chunk long accepted _ ih =>
    intro fuel hfuel
    obtain ⟨fuel, rfl⟩ : ∃ k, fuel = k + 1 := ⟨fuel - 1, by have := chunk.length; omega⟩
    rw [chunk.eq, wavChunks_cons chunk.toIsChunk, if_pos rfl, if_neg (by simp [accepted]; omega)]
    exact ih (by have := chunk.length; omega)
  | data chunk _ ih =>
    intro fuel hfuel
    obtain ⟨fuel, rfl⟩ : ∃ k, fuel = k + 1 := ⟨fuel - 1, by have := chunk.length; omega⟩
    rw [chunk.eq, wavChunks_cons chunk.toIsChunk, if_neg tagData_ne_tagFmt, if_pos rfl]
    exact ih (by have := chunk.length; omega)
  | other chunk noFmt noData _ ih =>
    intro fuel hfuel
    obtain ⟨fuel, rfl⟩ : ∃ k, fuel = k + 1 := ⟨fuel - 1, by have := chunk.length; omega⟩
    rw [chunk.eq, wavChunks_cons chunk.toIsChunk, if_neg noFmt, if_neg noData]
    exact ih (by have := chunk.length; omega)

/-! ## What is known of a file that was read -/

theorem WavParses.accepted {at_ : Nat} {chunks : List Byte} {fmt : Option WavFormat} {found : Option WavFile} {w : WavFile}
    (h : WavParses at_ chunks fmt found w) (hfmt : ∀ f, fmt = some f → f.accepted = true)
    (hfound : ∀ v, found = some v → v.format.accepted = true) : w.format.accepted = true := by
  induction h with
  | done => exact hfound _ rfl
  | format _ _ accepted _ ih => exact ih (fun f hf => Option.some.inj hf ▸ accepted) hfound
  | data _ _ ih => exact ih hfmt (fun v hv => Option.some.inj hv ▸ hfmt _ rfl)
  | other _ _ _ _ ih => exact ih hfmt hfound

/-- Nothing behind the data chunk changes what was found. -/
theorem WavParses.eq_found {at_ : Nat} {chunks : List Byte} {fmt : Option WavFormat} {v w : WavFile}
    (h : WavParses at_ chunks fmt (some v) w) : w = v := by
  generalize hfound : some v = found at h
  induction h with
  | done => exact (Option.some.inj hfound).symm
  | format _ _ _ _ ih => exact ih hfound
  | data => cases hfound
  | other _ _ _ _ ih => exact ih hfound

/-- Where the last chunk is the data: what stands before it, its size and its bytes; and any other data in its place is
read in the same way. -/
structure LastData (at_ : Nat) (chunks : List Byte) (fmt : Option WavFormat) (w : WavFile) (before size body : List Byte) :
    Prop where
  eq : chunks = before ++ (tagData ++ (size ++ body))
  size_length : size.length = 4
  body_length : body.length = leNat size + leNat size % 2
  data : w.data = body.take (leNat size)
  offset : w.dataOffset = at_ + before.length + 8
  other : ∀ {size' body' : List Byte}, size'.length = 4 → body'.length = leNat size' + leNat size' % 2 →
    WavParses at_ (before ++ (tagData ++ (size' ++ body'))) fmt none { w with data := body'.take (leNat size') }

/-- A chunk in front of the data changes the offset alone. -/
theorem LastData.cons {at_ : Nat} {chunks tag size body rest : List Byte} {fmt fmt' : Option WavFormat} {w : WavFile}
    {before size' body' : List Byte} (hc : ChunkAt chunks tag size body rest)
    (h : LastData (at_ + 8 + body.length) rest fmt' w before size' body')
    (hnext : ∀ {rest' : List Byte} {v : WavFile}, WavParses (at_ + 8 + body.length) rest' fmt' none v →
      WavParses at_ (tag ++ (size ++ (body ++ rest'))) fmt none v) :
    LastData at_ chunks fmt w (tag ++ (size ++ (body ++ before))) size' body' where
  eq := by rw [hc.eq, h.eq]; simp only [List.append_assoc]
  size_length := h.size_length
  body_length := h.body_length
  data := h.data
  offset := by
    rw [h.offset]
    simp only [List.length_append, hc.tag_length, hc.size_length]
    omega
  other hs hb := by
    have := hnext (h.other hs hb)
    simpa only [List.append_assoc] using this

theorem WavParses.lastData {at_ : Nat} {chunks : List Byte} {fmt : Option WavFormat} {w : WavFile}
    (h : WavParses at_ chunks fmt none w) (hlast : w.dataIsLast = true) :
    ∃ before size body, LastData at_ chunks fmt w before size body := by
  generalize hfound : (none : Option WavFile) = found at h
  induction h with
  | done => cases hfound
  | format chunk long accepted _ ih =>
    subst hfound
    obtain ⟨before, size, body, hl⟩ := ih hlast rfl
    exact ⟨_, size, body, hl.cons chunk fun hn => .format ⟨chunk.toIsChunk, rfl⟩ long accepted hn⟩
  | @data at_ chunks size body rest f w chunk next =>
    have hw := next.eq_found
    subst hw
    obtain rfl : rest = [] := List.isEmpty_iff.mp hlast
    refine ⟨[], size, body, ⟨?_, chunk.size_length, chunk.body_length, rfl, rfl, fun hs hb => ?_⟩⟩
    · rw [chunk.eq, List.append_nil, List.nil_append]
    · refine .data (rest := []) ⟨⟨rfl, hs, hb⟩, ?_⟩ (.done ..)
      rw [List.append_nil, List.nil_append]
  | other chunk noFmt noData _ ih =>
    subst hfound
    obtain ⟨before, size, body, hl⟩ := ih hlast rfl
    exact ⟨_, size, body, hl.cons chunk fun hn => .other ⟨chunk.toIsChunk, rfl⟩ noFmt noData hn⟩

end Sys2Proof.Machine
end

section
/-! WavFiles: stopping a session and the files it writes (rules R463, R501 .. R503, R515 .. R520, R550). -/

namespace Sys2Proof.Machine

/-! ## Whole files (rule R463) -/

theorem length_tagRiff : tagRiff.length = 4 := rfl
theorem length_tagWave : tagWave.length = 4 := rfl
theorem length_tagFmt : tagFmt.length = 4 := rfl
theorem length_tagData : tagData.length = 4 := rfl

/-- A file the parser takes is the two tags around a size, and chunks. -/
theorem parseWav_ok {file : List Byte} {w : WavFile} (h : parseWav file = .ok w) :
    ∃ size chunks, size.length = 4 ∧ file = tagRiff ++ (size ++ (tagWave ++ chunks)) ∧ WavParses 12 chunks none none w := by
  unfold parseWav at h
  split at h
  · cases h
  next hno =>
    rw [not_or, not_or, Nat.not_lt, not_not, not_not] at hno
    obtain ⟨hlen, hriff, hwave⟩ := hno
    refine ⟨(file.drop 4).take 4, file.drop 12, by rw [List.length_take, List.length_drop]; omega, ?_, wavParses_of_ok h⟩
    rw [← hriff, ← hwave, ← List.drop_drop (i := 4) (j := 8), List.take_append_drop,
      ← List.drop_drop (i := 4) (j := 4), List.take_append_drop, List.take_append_drop]

theorem parseWav_of_parses {size chunks : List Byte} {w : WavFile} (hs : size.length = 4)
    (h : WavParses 12 chunks none none w) : parseWav (tagRiff ++ (size ++ (tagWave ++ chunks))) = .ok w := by
  have hlen : (tagRiff ++ (size ++ (tagWave ++ chunks))).length = 12 + chunks.length := by
    simp only [List.length_append, hs, length_tagRiff, length_tagWave]
    omega
  have hriff : (tagRiff ++ (size ++ (tagWave ++ chunks))).take 4 = tagRiff := List.take_left' length_tagRiff
  have hdrop8 : (tagRiff ++ (size ++ (tagWave ++ chunks))).drop 8 = tagWave ++ chunks := by
    rw [← List.drop_drop (i := 4) (j := 4), List.drop_left' length_tagRiff, List.drop_left' hs]
  have hdrop12 : (tagRiff ++ (size ++ (tagWave ++ chunks))).drop 12 = chunks := by
    rw [← List.drop_drop (i := 4) (j := 8), hdrop8, List.drop_left' length_tagWave]
  have hwave : (tagWave ++ chunks).take 4 = tagWave := List.take_left' length_tagWave
  rw [parseWav, hlen, hriff, hdrop8, hdrop12, hwave, if_neg (by simp)]
  exact ok_of_wavParses h (by omega)

theorem WavFormat.of_accepted {f : WavFormat} (h : f.accepted = true) : f.audioFormat = 1 ∧ f.channels = 1 := by
  simp only [WavFormat.accepted, Bool.and_eq_true, decide_eq_true_eq] at h
  exact ⟨h.1.1.1, h.1.1.2⟩

/-- A file the recorder can keep or extend (rule R503). -/
theorem existingWav_iff (c : MachineConfig) (file : List Byte) (w : WavFile) :
    existingWav c file = some w ↔
      parseWav file = .ok w ∧ w.dataIsLast = true ∧
        w.format = { audioFormat := 1, channels := 1, sampleRate := c.recSampleRate, bits := 16 } := by
  unfold existingWav
  cases hp : parseWav file with
  | error e => simp
  | ok v =>
    obtain ⟨_, _, _, _, parses⟩ := parseWav_ok hp
    obtain ⟨audioFormat, channels⟩ := WavFormat.of_accepted (parses.accepted nofun nofun)
    dsimp only
    rw [Option.ite_none_right_eq_some]
    constructor
    · rintro ⟨⟨bits, rate, last⟩, hv⟩
      cases hv
      have fields : w.format = ⟨w.format.audioFormat, w.format.channels, w.format.sampleRate, w.format.bits⟩ := rfl
      exact ⟨rfl, last, fields.trans (by rw [audioFormat, channels, bits, rate])⟩
    · rintro ⟨hv, last, format⟩
      cases hv
      exact ⟨⟨by rw [format], by rw [format], last⟩, rfl⟩

/-! ## Overwriting (rules R517, R518) -/

theorem length_sampleBytes (x : Int) : (sampleBytes x).length = 2 := rfl

theorem length_flatMap_sampleBytes (audio : List Int) : (audio.flatMap sampleBytes).length = 2 * audio.length := by
  induction audio with
  | nil => rfl
  | cons x audio ih => rw [List.flatMap_cons, List.length_append, ih, length_sampleBytes, List.length_cons]; omega

/-- The sixteen bytes of the format the recorder writes. -/
def recFormatBytes (rate : Nat) : List Byte :=
  leBytes 2 1 ++ leBytes 2 1 ++ u32Field rate ++ u32Field (rate * 2) ++ leBytes 2 2 ++ leBytes 2 16

theorem length_recFormatBytes (rate : Nat) : (recFormatBytes rate).length = 16 := rfl

theorem readWavFormat_recFormatBytes {rate : Nat} (h : rate < 2 ^ 32) :
    readWavFormat (recFormatBytes rate) = { audioFormat := 1, channels := 1, sampleRate := rate, bits := 16 } := by
  have fields : readWavFormat (recFormatBytes rate) =
      { audioFormat := leNat (leBytes 2 1), channels := leNat (leBytes 2 1), sampleRate := leNat (u32Field rate),
        bits := leNat (leBytes 2 16) } := rfl
  rw [fields, leNat_u32Field h, leNat_leBytes, leNat_leBytes]
  norm_num

theorem wavOverwrite_eq (c : MachineConfig) (old : List Byte) (keep : Nat) (audio : List Int) :
    let d := 2 * (keep + audio.length)
    wavOverwrite c old keep audio =
      tagRiff ++ (u32Field (36 + d) ++ (tagWave ++ (tagFmt ++ (u32Field 16 ++ (recFormatBytes c.recSampleRate ++
        (tagData ++ (u32Field d ++ (old.take (2 * keep) ++ audio.flatMap sampleBytes)))))))) := by
  simp only [wavOverwrite, wavHeader, recFormatBytes, List.append_assoc]

theorem parseWav_wavOverwrite {c : MachineConfig} {old : List Byte} {keep : Nat} {audio : List Int}
    (hpos : 0 < c.recSampleRate) (hrate : c.recSampleRate < 2 ^ 32) (hkeep : 2 * keep ≤ old.length)
    (hfits : 36 + 2 * (keep + audio.length) < 2 ^ 32) :
    parseWav (wavOverwrite c old keep audio) = .ok
      { format := { audioFormat := 1, channels := 1, sampleRate := c.recSampleRate, bits := 16 },
        data := old.take (2 * keep) ++ audio.flatMap sampleBytes, dataOffset := 44, dataIsLast := true } := by
  have hsixteen : leNat (u32Field 16) = 16 := leNat_u32Field (by decide)
  have hsize : leNat (u32Field (2 * (keep + audio.length))) = 2 * (keep + audio.length) := leNat_u32Field (by omega)
  generalize hdata : old.take (2 * keep) ++ audio.flatMap sampleBytes = data
  have hlen : data.length = 2 * (keep + audio.length) := by
    rw [← hdata, List.length_append, List.length_take_of_le hkeep, length_flatMap_sampleBytes, Nat.mul_add]
  rw [wavOverwrite_eq, hdata]
  refine parseWav_of_parses (length_u32Field _) ?_
  have hformat : readWavFormat ((recFormatBytes c.recSampleRate).take (leNat (u32Field 16))) =
      { audioFormat := 1, channels := 1, sampleRate := c.recSampleRate, bits := 16 } := by
    rw [hsixteen, List.take_of_length_le (length_recFormatBytes _).le, readWavFormat_recFormatBytes hrate]
  refine .format (size := u32Field 16) (body := recFormatBytes c.recSampleRate)
    ⟨⟨rfl, length_u32Field _, by rw [hsixteen]; rfl⟩, rfl⟩ hsixteen.ge ?_ ?_
  · rw [hformat]
    simp [WavFormat.accepted, hpos.ne']
  · rw [hformat]
    have hall : data.take (leNat (u32Field (2 * (keep + audio.length)))) = data :=
      List.take_of_length_le (by rw [hsize, hlen])
    refine .data (size := u32Field (2 * (keep + audio.length))) (body := data) (rest := [])
      ⟨⟨rfl, length_u32Field _, by rw [hsize, hlen]; omega⟩, by rw [List.append_nil]⟩ ?_
    rw [hall]
    exact .done ..

/-- The header is written out. -/
theorem wavOverwrite_bytes (c : MachineConfig) (old : List Byte) (keep : Nat) (audio : List Int) :
    let d := 2 * (keep + audio.length)
    wavOverwrite c old keep audio =
      [0x52#8, 0x49#8, 0x46#8, 0x46#8] ++ u32Field (36 + d) ++ [0x57#8, 0x41#8, 0x56#8, 0x45#8] ++
        [0x66#8, 0x6D#8, 0x74#8, 0x20#8] ++ [16#8, 0#8, 0#8, 0#8] ++ [1#8, 0#8] ++ [1#8, 0#8] ++
        u32Field c.recSampleRate ++ u32Field (c.recSampleRate * 2) ++ [2#8, 0#8] ++ [16#8, 0#8] ++
        [0x64#8, 0x61#8, 0x74#8, 0x61#8] ++ u32Field d ++ old.take (2 * keep) ++ audio.flatMap sampleBytes := by
  have hsixteen : u32Field 16 = [16#8, 0#8, 0#8, 0#8] := u32Field_of_lt (by decide)
  simp only [wavOverwrite, wavHeader, hsixteen, List.append_assoc]
  rfl

/-! ## Appending (rule R519) -/

theorem patchBytes_append {before old new after : List Byte} (h : new.length = old.length) :
    patchBytes (before ++ (old ++ after)) before.length new = before ++ (new ++ after) := by
  rw [patchBytes, List.take_left, h, ← List.drop_drop, List.drop_left, List.drop_left, List.append_assoc]

theorem length_patchBytes {file bytes : List Byte} {offset : Nat} (h : offset + bytes.length ≤ file.length) :
    (patchBytes file offset bytes).length = file.length := by
  simp only [patchBytes, List.length_append, List.length_take, List.length_drop]
  omega

theorem getElem?_patchBytes {file bytes : List Byte} {offset k : Nat} (h : offset + bytes.length ≤ file.length)
    (hk : k < offset ∨ offset + bytes.length ≤ k) : (patchBytes file offset bytes)[k]? = file[k]? := by
  have htake : (file.take offset).length = offset := List.length_take_of_le (by omega)
  rw [patchBytes, List.append_assoc]
  rcases hk with hk | hk
  · rw [List.getElem?_append_left (by omega), List.getElem?_take_of_lt hk]
  · rw [List.getElem?_append_right (by omega), List.getElem?_append_right (by omega), List.getElem?_drop]
    congr 1
    omega

/-- All that stands before the size of the data chunk: the RIFF size and the chunks before it are given. -/
def wavFront (riff before : List Byte) : List Byte := tagRiff ++ (riff ++ (tagWave ++ (before ++ tagData)))

theorem length_wavFront {riff : List Byte} (h : riff.length = 4) (before : List Byte) :
    (wavFront riff before).length = before.length + 16 := by
  simp only [wavFront, List.length_append, h, length_tagRiff, length_tagWave, length_tagData]
  omega

theorem patchBytes_wavFront {riff riff' : List Byte} (h : riff.length = 4) (h' : riff'.length = 4) (before rest : List Byte) :
    patchBytes (wavFront riff before ++ rest) 4 riff' = wavFront riff' before ++ rest := by
  have := patchBytes_append (before := tagRiff) (after := tagWave ++ (before ++ (tagData ++ rest))) (h'.trans h.symm)
  rw [length_tagRiff] at this
  simpa only [wavFront, List.append_assoc] using this

/-- The parts of a file whose last chunk is the data. -/
structure WavParts (file : List Byte) (w : WavFile) (riff before size body : List Byte) : Prop where
  riff_length : riff.length = 4
  last : LastData 12 (before ++ (tagData ++ (size ++ body))) none w before size body
  file_eq : file = wavFront riff before ++ (size ++ body)

theorem wavParts_of_existingWav {c : MachineConfig} {file : List Byte} {w : WavFile} (h : existingWav c file = some w) :
    ∃ riff before size body, WavParts file w riff before size body := by
  obtain ⟨hparse, hlast, -⟩ := (existingWav_iff c file w).mp h
  obtain ⟨riff, chunks, hriff, hfile, parses⟩ := parseWav_ok hparse
  obtain ⟨before, size, body, last⟩ := parses.lastData hlast
  have hchunks := last.eq
  subst hchunks
  exact ⟨riff, before, size, body, hriff, last, by simpa only [wavFront, List.append_assoc] using hfile⟩

section
variable {file : List Byte} {w : WavFile} {riff before size body : List Byte} (h : WavParts file w riff before size body)
include h

theorem WavParts.offset : w.dataOffset = before.length + 20 := by rw [h.last.offset]; omega

theorem WavParts.length : file.length = w.dataOffset + body.length := by
  rw [h.file_eq, h.offset, List.length_append, List.length_append, length_wavFront h.riff_length, h.last.size_length]
  omega

theorem WavParts.data_length : w.data.length = leNat size := by
  have hbody := h.last.body_length
  rw [h.last.data, List.length_take_of_le (by omega)]

/-- The bytes of the data chunk are those the parser gave, and a pad byte when their number is odd. -/
theorem WavParts.body_length : body.length = w.data.length + w.data.length % 2 := by
  rw [h.data_length, h.last.body_length]

/-- The appended file: the same parts with the samples behind and both size fields anew. -/
theorem WavParts.wavAppend_eq (audio : List Int) :
    wavAppend file w audio =
      wavFront (u32Field (file.length + 2 * audio.length - 8)) before ++
        (u32Field (w.data.length + 2 * audio.length) ++ (body ++ audio.flatMap sampleBytes)) := by
  have hriff := length_u32Field (file.length + 2 * audio.length - 8)
  have hsize := (length_u32Field (w.data.length + 2 * audio.length)).trans h.last.size_length.symm
  have hfront := length_wavFront hriff before
  have hoffset : w.dataOffset - 4 = before.length + 16 := by rw [h.offset]; omega
  have hgrown : file ++ audio.flatMap sampleBytes = wavFront riff before ++ (size ++ (body ++ audio.flatMap sampleBytes)) := by
    rw [h.file_eq, List.append_assoc, List.append_assoc]
  rw [wavAppend, List.length_append, length_flatMap_sampleBytes, hoffset, hgrown, patchBytes_wavFront h.riff_length hriff,
    ← hfront, patchBytes_append hsize]

theorem WavParts.length_wavAppend (audio : List Int) : (wavAppend file w audio).length = file.length + 2 * audio.length := by
  simp only [h.wavAppend_eq, List.length_append, length_wavFront (length_u32Field _), length_u32Field,
    length_flatMap_sampleBytes, h.length, h.offset]
  omega

theorem WavParts.riff_field (audio : List Int) :
    ((wavAppend file w audio).drop 4).take 4 = u32Field ((wavAppend file w audio).length - 8) := by
  rw [h.length_wavAppend, h.wavAppend_eq, wavFront, List.append_assoc, List.drop_left' length_tagRiff, List.append_assoc,
    List.take_left' (length_u32Field _)]

theorem WavParts.drop_size (audio : List Int) :
    (wavAppend file w audio).drop (w.dataOffset - 4) =
      u32Field (w.data.length + 2 * audio.length) ++ (body ++ audio.flatMap sampleBytes) := by
  have hoffset : w.dataOffset - 4 = before.length + 16 := by rw [h.offset]; omega
  rw [hoffset, h.wavAppend_eq, List.drop_left' (length_wavFront (length_u32Field _) before)]

theorem WavParts.size_field (audio : List Int) :
    ((wavAppend file w audio).drop (w.dataOffset - 4)).take 4 = u32Field (w.data.length + 2 * audio.length) := by
  rw [h.drop_size, List.take_left' (length_u32Field _)]

theorem WavParts.drop_data (audio : List Int) :
    (wavAppend file w audio).drop w.dataOffset = body ++ audio.flatMap sampleBytes := by
  have hoffset : w.dataOffset = w.dataOffset - 4 + 4 := by have := h.offset; omega
  rw [hoffset, ← List.drop_drop, h.drop_size, List.drop_left' (length_u32Field _)]

theorem WavParts.drop_file (audio : List Int) :
    (wavAppend file w audio).drop file.length = audio.flatMap sampleBytes := by
  rw [h.length, ← List.drop_drop, h.drop_data, List.drop_left]

/-- Every byte of the old file outside the two size fields stays. -/
theorem WavParts.getElem?_wavAppend (audio : List Int) {k : Nat} (hk : k < file.length) (hriff : k < 4 ∨ 8 ≤ k)
    (hsize : k < w.dataOffset - 4 ∨ w.dataOffset ≤ k) : (wavAppend file w audio)[k]? = file[k]? := by
  have hlen := h.length
  have hoffset := h.offset
  have hgrown : (file ++ audio.flatMap sampleBytes).length = file.length + 2 * audio.length := by
    rw [List.length_append, length_flatMap_sampleBytes]
  have hriffFits (n : Nat) : 4 + (u32Field n).length ≤ (file ++ audio.flatMap sampleBytes).length := by
    rw [length_u32Field]
    omega
  rw [wavAppend, getElem?_patchBytes, getElem?_patchBytes (hriffFits _), List.getElem?_append_left hk]
  · rwa [length_u32Field]
  · rw [length_patchBytes (hriffFits _), length_u32Field]
    omega
  · rw [length_u32Field]
    omega

theorem WavParts.parse_wavAppend {audio : List Int} (hfits : w.data.length + 2 * audio.length < 2 ^ 32) :
    parseWav (wavAppend file w audio) = .ok
      { w with data := (body ++ audio.flatMap sampleBytes).take (w.data.length + 2 * audio.length) } := by
  have hsize := leNat_u32Field hfits
  have parses := h.last.other (size' := u32Field (w.data.length + 2 * audio.length))
    (body' := body ++ audio.flatMap sampleBytes) (length_u32Field _) (by
      rw [hsize, List.length_append, length_flatMap_sampleBytes, h.body_length]
      omega)
  rw [hsize] at parses
  have := parseWav_of_parses (length_u32Field (file.length + 2 * audio.length - 8)) parses
  rw [h.wavAppend_eq, ← this]
  simp only [wavFront, List.append_assoc]

/-- Behind data of an even number of bytes there is no pad byte. -/
theorem WavParts.take_body_of_even {audio : List Int} (heven : w.data.length % 2 = 0) :
    (body ++ audio.flatMap sampleBytes).take (w.data.length + 2 * audio.length) = w.data ++ audio.flatMap sampleBytes := by
  have hbody : body.length = w.data.length := by rw [h.body_length, heven, Nat.add_zero]
  have hdata : w.data = body := h.last.data.trans (List.take_of_length_le (by rw [hbody, h.data_length]))
  rw [hdata, List.take_of_length_le]
  rw [List.length_append, length_flatMap_sampleBytes]

end

/-! ## Stopping a session (rules R515, R516, R520) -/

theorem tapFile_eq (blocks : List Block) :
    tapFile blocks = (blocks.filter (fun b => decide (b.data.length < 65536))).flatMap (fun b => tapRecord b.data) := by
  induction blocks with
  | nil => rfl
  | cons b blocks ih =>
    rw [tapFile, List.flatMap_cons, ← tapFile, ih]
    by_cases hb : b.data.length < 65536
    · rw [List.filter_cons_of_pos (by simpa using hb), List.flatMap_cons]
      rw [if_neg (by omega), tapRecord]
    · rw [List.filter_cons_of_neg (by simpa using hb)]
      rw [if_pos (by omega), List.nil_append]

theorem output_own_file {c : MachineConfig} {r : Recorder} {file : List Byte} {w : WavFile} (hf : r.format = .wav)
    (he : r.wavExisting = some file) (hw : existingWav c file = some w) :
    r.output c = if r.append then wavAppend file w r.audioBuf else wavOverwrite c w.data r.wavPrefixSamples r.audioBuf := by
  simp only [Recorder.output, hf, he, hw]

theorem recordStop_clean {s : State} (h : (s.recorder.update s.config s.clock true).sessionDirty = false) :
    s.recordStop = ({ s with recorder := (s.recorder.update s.config s.clock true).ended } : State).accept := by
  simp [State.recordStop, h]

theorem recordStop_written {s : State} (h : (s.recorder.update s.config s.clock true).sessionDirty = true)
    (hw : s.disk.writable = true) :
    s.recordStop =
      ({ s with
          recorder := (s.recorder.update s.config s.clock true).ended
          disk := { s.disk with recorderOutput := some ((s.recorder.update s.config s.clock true).output s.config) } } :
        State).accept := by
  simp [State.recordStop, h, hw]

theorem recordStop_failed {s : State} (h : (s.recorder.update s.config s.clock true).sessionDirty = true)
    (hw : s.disk.writable = false) :
    s.recordStop =
      ({ s with
          recorder := (s.recorder.update s.config s.clock true).ended
          disk := { s.disk with recorderOutput := Config.freeFile s.freeDraws }
          freeDraws := s.freeDraws + 1 } : State).reject (recorderError s.config .tapeIo) := by
  simp [State.recordStop, h, hw]

/-- Settles O59: the files by their parts, the stop by its three outcomes. -/
theorem wavFiles : Obligations.WavFiles := by
  refine ⟨fun c old keep audio => parseWav_wavOverwrite, fun n => ⟨length_u32Field n, u32Field_of_lt⟩, wavOverwrite_bytes,
    existingWav_iff, fun c file w audio hw => ?_, fun c r => ⟨fun hf => ?_, fun hf he => ?_, fun file w => output_own_file⟩,
    fun s running => ⟨fun hd => ?_, fun hd hwr => ?_, fun hd hwr => ?_⟩⟩
  · obtain ⟨riff, before, size, body, parts⟩ := wavParts_of_existingWav hw
    refine ⟨parts.length_wavAppend audio, parts.riff_field audio, parts.size_field audio, parts.drop_file audio,
      fun k => parts.getElem?_wavAppend audio, fun hfits => ⟨?_, fun heven => ?_⟩⟩
    · rw [parts.parse_wavAppend hfits, parts.drop_data]
    · rw [parts.parse_wavAppend hfits, parts.take_body_of_even heven]
  · simp only [Recorder.output, hf, tapFile_eq]
  · simp only [Recorder.output, hf, he]
  · exact (requestDone_iff running).mpr (congrArg Host.Outcome.next (recordStop_clean hd))
  · exact (requestDone_iff running).mpr (congrArg Host.Outcome.next (recordStop_written hd hwr))
  · exact ⟨_, (requestAnswers_iff running).mpr (congrArg Host.Outcome.next (recordStop_failed hd hwr))⟩

end Sys2Proof.Machine
end
